-- ==== Sys2Proof/Word.lean ====
section
/-! DEFINITION. The word types of the capture core and the two pipeline names (00_scope.md R8, R10). -/

namespace Sys2Proof

/-- An 8-bit value (R10). -/
abbrev Byte := BitVec 8

/-- A 32-bit register value, ring address or ring record (R10). -/
abbrev Word := BitVec 32

/-- One scheduled command of the environment: 56 bits, laid out as Decode.lean says. DESIGN CHOICE (log 1, log 2). -/
abbrev CmdWord := BitVec 56

/-- A pipeline instance: RX = 0, TX = 1 (R8 `N_PIPE`, R451). -/
inductive Pipe where
  | rx
  | tx
deriving DecidableEq, Repr

/-- The other pipeline instance (R15 'Peer'). -/
def Pipe.peer : Pipe → Pipe
  | .rx => .tx
  | .tx => .rx

end Sys2Proof
end

