-- ==== Sys2Proof/Syntax.lean ====
section
/-! DEFINITION. The instructions of the capture core: one constructor per row of spec/opcode_table.json, in the table's order.
A CSR row carries the pipeline whose bank is addressed and the value written (30_encoding.md R114); a SYM9 row the pipeline
whose input source delivers the symbol (R101, log 7); a STEP row the pipeline whose stage steps (R114, 44_pipeline.md R360). -/

namespace Sys2Proof

/-- How a Recorder tick is taken (43_recorder.md R300): without an item, or with the head of `q_trg`, and then whether the memory
sink is ready in this step (44_pipeline.md R366; log 12). -/
inductive Tick where
  | idle
  | item (sinkReady : Bool)
deriving DecidableEq, Repr

/-- The instructions: the rows of spec/opcode_table.json. -/
inductive Instr where
  -- CSR_WR: configuration (45_host.md R391 to R398)
  | wrFilterEnable (p : Pipe) (v : Word)
  | wrFilterConfig (p : Pipe) (v : Word)
  | wrTlpDllpTimeout (p : Pipe) (v : Word)
  | wrTrigArmed (p : Pipe) (v : Word)
  | wrTrigSize (p : Pipe) (v : Word)
  | wrRecMode (p : Pipe) (v : Word)
  | wrRecOffset (p : Pipe) (v : Word)
  | wrRecSize (p : Pipe) (v : Word)
  -- CSR_RD: configuration (R399)
  | rdFilterEnable (p : Pipe)
  | rdFilterConfig (p : Pipe)
  | rdTlpDllpTimeout (p : Pipe)
  | rdTrigArmed (p : Pipe)
  | rdTrigSize (p : Pipe)
  | rdRecMode (p : Pipe)
  | rdRecOffset (p : Pipe)
  | rdRecSize (p : Pipe)
  -- commands (R400, R401)
  | start (p : Pipe) (v : Word)
  | stop (p : Pipe) (v : Word)
  -- pattern table (R402, R403)
  | wrPattern (p : Pipe) (i : Byte) (v : Word)
  | rdPattern (p : Pipe) (i : Byte)
  -- status and geometry (R404 to R408)
  | rdStatusTriggered (p : Pipe)
  | rdStatusFinished (p : Pipe)
  | rdStatusTrigAddr (p : Pipe)
  | rdStatusState (p : Pipe)
  | rdGeomBase (p : Pipe)
  | rdGeomLength (p : Pipe)
  | rdGeomChunk (p : Pipe)
  | rdGeomStep (p : Pipe)
  -- other accesses to named registers (R409)
  | rdRecStart (p : Pipe)
  | rdRecStop (p : Pipe)
  | wrStatusTriggered (p : Pipe) (v : Word)
  | wrStatusFinished (p : Pipe) (v : Word)
  | wrStatusTrigAddr (p : Pipe) (v : Word)
  | wrStatusState (p : Pipe) (v : Word)
  | wrGeomBase (p : Pipe) (v : Word)
  | wrGeomLength (p : Pipe) (v : Word)
  | wrGeomChunk (p : Pipe) (v : Word)
  | wrGeomStep (p : Pipe) (v : Word)
  -- SYM9: the symbol codes (30_encoding.md R102)
  | com (p : Pipe)
  | skp (p : Pipe)
  | fts (p : Pipe)
  | idl (p : Pipe)
  | stp (p : Pipe)
  | sdp (p : Pipe)
  | endSym (p : Pipe)
  | d215 (p : Pipe)
  | d102 (p : Pipe)
  | d52 (p : Pipe)
  | kOther (p : Pipe) (v : Byte)
  | dOther (p : Pipe) (v : Byte)
  -- STEP: classifier (40_classifier.md R150, R155)
  | align (p : Pipe)
  | label (p : Pipe)
  -- STEP: filter writer (41_filter.md R201, R203, R204, R206)
  | filtWriteFind (p : Pipe)
  | filtWriteOsbody (p : Pipe)
  | filtWritePkt (p : Pipe)
  | filtWritePass (p : Pipe)
  -- STEP: filter reader (R208 to R211)
  | filtReadPass (p : Pipe)
  | filtReadSelect (p : Pipe)
  | filtReadTsins (p : Pipe)
  | filtReadDrain (p : Pipe)
  -- STEP: trigger engine (42_trigger.md R264)
  | trig (p : Pipe)
  -- STEP: recorder (43_recorder.md R305 to R310)
  | recTickIdle (p : Pipe) (t : Tick)
  | recTickPre (p : Pipe) (t : Tick)
  | recTickWait (p : Pipe) (t : Tick)
  | recTickPost (p : Pipe) (t : Tick)
  | recTickDoneAbort (p : Pipe) (t : Tick)
  | recTickForced (p : Pipe) (t : Tick)
  -- STEP: the clock agent (44_pipeline.md R367)
  | clock
deriving DecidableEq, Repr

/-- A stage agent of a pipeline (44_pipeline.md R360). Which STEP row it takes is selected by its stage's state (R114). -/
inductive Agent where
  | aligner
  | labeller
  | writer
  | reader
  | trigger
  | recorder (t : Tick)
deriving DecidableEq, Repr

/-- What one command word asks for: an instruction of the table; one step of a stage agent, whose row the state selects (R114);
or a host access to a reserved offset, which no row names (R409; log 13). -/
inductive Command where
  | instr (i : Instr)
  | agent (p : Pipe) (a : Agent)
  | reservedWrite (p : Pipe) (offset : BitVec 12) (v : Word)
  | reservedRead (p : Pipe) (offset : BitVec 12)
deriving DecidableEq, Repr

end Sys2Proof
end

