-- ==== Sys2Proof/WellFormed.lean ====
section
/-! DEFINITION. Which commands stand for a row of the table, or for an access the table does not name. Every operand type of an
instruction is exact, but for the bytes of K_OTHER and D_OTHER: where table rows overlap the exact code is more specific and
wins (30_encoding.md R113), so these two rows carry no byte that has a row of its own. -/

namespace Sys2Proof

/-- The values of the control bytes with a row of their own: COM, SKP, FTS, IDL, STP, SDP, END (R102). -/
def namedControl : List Byte := [0xBC, 0x1C, 0x3C, 0x7C, 0xFB, 0x5C, 0xFD]

/-- The values of the data bytes with a row of their own: D21.5, D10.2, D5.2 (R102). -/
def namedData : List Byte := [0xB5, 0x4A, 0x45]

/-- The instruction is the reading of some word of the table. -/
def Instr.wellFormed : Instr → Bool
  | .kOther _ v => decide (v ∉ namedControl)
  | .dOther _ v => decide (v ∉ namedData)
  | .wrFilterEnable .. | .wrFilterConfig .. | .wrTlpDllpTimeout .. | .wrTrigArmed .. | .wrTrigSize .. | .wrRecMode ..
  | .wrRecOffset .. | .wrRecSize .. | .rdFilterEnable .. | .rdFilterConfig .. | .rdTlpDllpTimeout .. | .rdTrigArmed ..
  | .rdTrigSize .. | .rdRecMode .. | .rdRecOffset .. | .rdRecSize .. | .start .. | .stop .. | .wrPattern .. | .rdPattern ..
  | .rdStatusTriggered .. | .rdStatusFinished .. | .rdStatusTrigAddr .. | .rdStatusState .. | .rdGeomBase ..
  | .rdGeomLength .. | .rdGeomChunk .. | .rdGeomStep .. | .rdRecStart .. | .rdRecStop .. | .wrStatusTriggered ..
  | .wrStatusFinished .. | .wrStatusTrigAddr .. | .wrStatusState .. | .wrGeomBase .. | .wrGeomLength .. | .wrGeomChunk ..
  | .wrGeomStep .. | .com .. | .skp .. | .fts .. | .idl .. | .stp .. | .sdp .. | .endSym .. | .d215 .. | .d102 .. | .d52 ..
  | .align .. | .label .. | .filtWriteFind .. | .filtWriteOsbody .. | .filtWritePkt .. | .filtWritePass ..
  | .filtReadPass .. | .filtReadSelect .. | .filtReadTsins .. | .filtReadDrain .. | .trig .. | .recTickIdle ..
  | .recTickPre .. | .recTickWait .. | .recTickPost .. | .recTickDoneAbort .. | .recTickForced .. | .clock => true

/-- A 4-aligned offset that no register of 10_state.md R52 has: 0x048 to 0x3FC and 0x800 to 0xFFC. PATTERN slots at or above
MEM_SIZE are also reserved, and the PATTERN rows treat them so (R402, R403). -/
def reservedOffset (off : BitVec 12) : Bool :=
  decide (off.toNat % 4 = 0) &&
  (decide (0x048 ≤ off.toNat) && decide (off.toNat < 0x400) || decide (0x800 ≤ off.toNat))

/-- The command is the reading of some command word. -/
def Command.wellFormed : Command → Bool
  | .instr i => i.wellFormed
  | .agent _ _ => true
  | .reservedWrite _ off _ => reservedOffset off
  | .reservedRead _ off => reservedOffset off

end Sys2Proof
end

