-- ==== Sys2Proof/Decode.lean ====
section
/-! DEFINITION. Command words: the decoder, total on any word and rejecting by name, and after it the encoder.

The core fetches no instructions (10_state.md R31), and the spec encodes its steps in no word: a host access is
`(P, op, offset, value)`, a symbol is a SYM9 word, and a stage step is selected by the stage's state (30_encoding.md R114).
The model gives the environment's choices one 56-bit command word each. DESIGN CHOICE (log 2):

* bits [15:0] `code`: the row's own number of spec/opcode_table.json (the register offset, the SYM9 word), or a step code;
* bits [47:16] `value`: the value a host write carries, or how a Recorder tick is taken;
* bits [49:48] `width`: 0 for a 32-bit host access, otherwise another access width;
* bit 50 `pipe`: 0 for RX, 1 for TX (R451);
* bits [55:51] `fmt`: 0 CSR_WR, 1 CSR_RD, 2 SYM9, 3 STEP, 4 a stage agent's step.

A field that a format does not use must be 0. -/

namespace Sys2Proof

/-- The fields of a command word. -/
structure CmdFields where
  code : BitVec 16
  value : Word
  width : BitVec 2
  pipe : Bool
  fmt : BitVec 5
deriving DecidableEq, Repr

/-- The fields of a word. -/
def CmdFields.ofWord (w : CmdWord) : CmdFields where
  code := w.extractLsb' 0 16
  value := w.extractLsb' 16 32
  width := w.extractLsb' 48 2
  pipe := w.getLsbD 50
  fmt := w.extractLsb' 51 5

/-- The word with given fields. -/
def CmdFields.toWord (f : CmdFields) : CmdWord :=
  f.fmt ++ BitVec.ofBool f.pipe ++ f.width ++ f.value ++ f.code

/-- Why a word encodes no command. `not32Bit` and `unaligned` are the refused accesses of 45_host.md R410. -/
inductive DecodeError where
  | not32Bit
  | unaligned
  | offsetOutOfBank
  | unknownSymbol
  | unknownStep
  | unknownAgent
  | unknownFormat
  | strayBits
deriving DecidableEq, Repr

/-- RX = 0, TX = 1 (R451). -/
def pipeOfBit : Bool → Pipe
  | false => .rx
  | true => .tx

/-- The bit of `pipeOfBit`. -/
def bitOfPipe : Pipe → Bool
  | .rx => false
  | .tx => true

/-- PATTERN offsets: match 0x400, mask 0xC00 (30_encoding.md R114). -/
def isPatternOffset (off : BitVec 12) : Bool := off.extractLsb' 10 2 == 0b01#2

/-- The PATTERN index `i = offset[9:2]` (R114). -/
def patternIndex (off : BitVec 12) : Byte := off.extractLsb' 2 8

/-- `0x400 + 4·i` (10_state.md R52). -/
def patternOffset (i : Byte) : BitVec 12 := 0b01#2 ++ i ++ 0b00#2

/-- The host write selected by an offset (CSR_WR rows; R52, R114). -/
def writeAt (p : Pipe) (off : BitVec 12) (v : Word) : Command :=
  match off.toNat with
  | 0x000 => .instr (.wrFilterEnable p v)
  | 0x004 => .instr (.wrFilterConfig p v)
  | 0x008 => .instr (.wrTlpDllpTimeout p v)
  | 0x00C => .instr (.wrTrigArmed p v)
  | 0x010 => .instr (.wrTrigSize p v)
  | 0x014 => .instr (.wrRecMode p v)
  | 0x018 => .instr (.wrRecOffset p v)
  | 0x01C => .instr (.wrRecSize p v)
  | 0x020 => .instr (.start p v)
  | 0x024 => .instr (.stop p v)
  | 0x028 => .instr (.wrStatusTriggered p v)
  | 0x02C => .instr (.wrStatusFinished p v)
  | 0x030 => .instr (.wrStatusTrigAddr p v)
  | 0x034 => .instr (.wrStatusState p v)
  | 0x038 => .instr (.wrGeomBase p v)
  | 0x03C => .instr (.wrGeomLength p v)
  | 0x040 => .instr (.wrGeomChunk p v)
  | 0x044 => .instr (.wrGeomStep p v)
  | _ => if isPatternOffset off then .instr (.wrPattern p (patternIndex off) v) else .reservedWrite p off v

/-- The host read selected by an offset (CSR_RD rows; R52, R114). -/
def readAt (p : Pipe) (off : BitVec 12) : Command :=
  match off.toNat with
  | 0x000 => .instr (.rdFilterEnable p)
  | 0x004 => .instr (.rdFilterConfig p)
  | 0x008 => .instr (.rdTlpDllpTimeout p)
  | 0x00C => .instr (.rdTrigArmed p)
  | 0x010 => .instr (.rdTrigSize p)
  | 0x014 => .instr (.rdRecMode p)
  | 0x018 => .instr (.rdRecOffset p)
  | 0x01C => .instr (.rdRecSize p)
  | 0x020 => .instr (.rdRecStart p)
  | 0x024 => .instr (.rdRecStop p)
  | 0x028 => .instr (.rdStatusTriggered p)
  | 0x02C => .instr (.rdStatusFinished p)
  | 0x030 => .instr (.rdStatusTrigAddr p)
  | 0x034 => .instr (.rdStatusState p)
  | 0x038 => .instr (.rdGeomBase p)
  | 0x03C => .instr (.rdGeomLength p)
  | 0x040 => .instr (.rdGeomChunk p)
  | 0x044 => .instr (.rdGeomStep p)
  | _ => if isPatternOffset off then .instr (.rdPattern p (patternIndex off)) else .reservedRead p off

/-- A host access: refused when it is not 32 bits wide or not at a multiple of 4 (20_memory.md R74, 45_host.md R410). -/
def decodeAccess (f : CmdFields) (select : BitVec 12 → Command) : Except DecodeError Command :=
  if f.width ≠ 0 then .error .not32Bit
  else if f.code.extractLsb' 0 2 ≠ 0 then .error .unaligned
  else if f.code.extractLsb' 12 4 ≠ 0 then .error .offsetOutOfBank
  else .ok (select (f.code.extractLsb' 0 12))

/-- The SYM9 row of a symbol word `{k, v[7:0]}`: the exact code where there is one, else K_OTHER or D_OTHER (R101, R102, R113). -/
def symbolInstr (p : Pipe) (w : BitVec 9) : Instr :=
  match w.toNat with
  | 0x1BC => .com p
  | 0x11C => .skp p
  | 0x13C => .fts p
  | 0x17C => .idl p
  | 0x1FB => .stp p
  | 0x15C => .sdp p
  | 0x1FD => .endSym p
  | 0x0B5 => .d215 p
  | 0x04A => .d102 p
  | 0x045 => .d52 p
  | _ => if w.getLsbD 8 then .kOther p (w.extractLsb' 0 8) else .dOther p (w.extractLsb' 0 8)

/-- A symbol that the input source delivers (R101). -/
def decodeSymbol (f : CmdFields) : Except DecodeError Command :=
  if f.width ≠ 0 ∨ f.value ≠ 0 then .error .strayBits
  else if f.code.extractLsb' 9 7 ≠ 0 then .error .unknownSymbol
  else .ok (.instr (symbolInstr (pipeOfBit f.pipe) (f.code.extractLsb' 0 9)))

/-- How a Recorder tick is taken, in the `value` field: 0 an idle tick, 1 an item tick with the sink not ready, 3 with it ready. -/
def tickOfValue (v : Word) : Option Tick :=
  match v.toNat with
  | 0 => some .idle
  | 1 => some (.item false)
  | 3 => some (.item true)
  | _ => none

/-- The `value` field of a tick. -/
def valueOfTick : Tick → Word
  | .idle => 0
  | .item false => 1
  | .item true => 3

/-- The stage steps that have no operand, by step code in the table's order. -/
def plainStep (p : Pipe) (code : Nat) : Option Instr :=
  match code with
  | 0 => some (.align p)
  | 1 => some (.label p)
  | 2 => some (.filtWriteFind p)
  | 3 => some (.filtWriteOsbody p)
  | 4 => some (.filtWritePkt p)
  | 5 => some (.filtWritePass p)
  | 6 => some (.filtReadPass p)
  | 7 => some (.filtReadSelect p)
  | 8 => some (.filtReadTsins p)
  | 9 => some (.filtReadDrain p)
  | 10 => some (.trig p)
  | _ => none

/-- The Recorder's steps, by step code in the table's order. -/
def tickStep (p : Pipe) (t : Tick) (code : Nat) : Option Instr :=
  match code with
  | 11 => some (.recTickIdle p t)
  | 12 => some (.recTickPre p t)
  | 13 => some (.recTickWait p t)
  | 14 => some (.recTickPost p t)
  | 15 => some (.recTickDoneAbort p t)
  | 16 => some (.recTickForced p t)
  | _ => none

/-- The step code of CLOCK, the table's last row. -/
def clockCode : BitVec 16 := 17

/-- A STEP row. -/
def decodeStep (f : CmdFields) : Except DecodeError Command :=
  if f.width ≠ 0 then .error .strayBits
  else if f.code = clockCode then (if f.pipe ∨ f.value ≠ 0 then .error .strayBits else .ok (.instr .clock))
  else match plainStep (pipeOfBit f.pipe) f.code.toNat with
    | some i => if f.value ≠ 0 then .error .strayBits else .ok (.instr i)
    | none =>
      match tickOfValue f.value with
      | none => .error .strayBits
      | some t =>
        match tickStep (pipeOfBit f.pipe) t f.code.toNat with
        | some i => .ok (.instr i)
        | none => .error .unknownStep

/-- The stage agents that have no operand, by agent code. -/
def plainAgent (code : Nat) : Option Agent :=
  match code with
  | 0 => some .aligner
  | 1 => some .labeller
  | 2 => some .writer
  | 3 => some .reader
  | 4 => some .trigger
  | _ => none

/-- The agent code of the Recorder. -/
def recorderCode : BitVec 16 := 5

/-- One step of a stage agent (44_pipeline.md R360). -/
def decodeAgent (f : CmdFields) : Except DecodeError Command :=
  if f.width ≠ 0 then .error .strayBits
  else match plainAgent f.code.toNat with
    | some a => if f.value ≠ 0 then .error .strayBits else .ok (.agent (pipeOfBit f.pipe) a)
    | none =>
      if f.code = recorderCode then
        match tickOfValue f.value with
        | none => .error .strayBits
        | some t => .ok (.agent (pipeOfBit f.pipe) (.recorder t))
      else .error .unknownAgent

/-- The command that the fields of a word stand for. -/
def decodeFields (f : CmdFields) : Except DecodeError Command :=
  match f.fmt.toNat with
  | 0 => decodeAccess f (fun off => writeAt (pipeOfBit f.pipe) off f.value)
  | 1 => if f.value ≠ 0 then .error .strayBits else decodeAccess f (fun off => readAt (pipeOfBit f.pipe) off)
  | 2 => decodeSymbol f
  | 3 => decodeStep f
  | 4 => decodeAgent f
  | _ => .error .unknownFormat

/-- THE DECODER: the command a word stands for, or why it stands for none. -/
def decode (w : CmdWord) : Except DecodeError Command := decodeFields (CmdFields.ofWord w)

/-! ### The encoder -/

/-- A host write of `v` at offset `off` of `p`'s bank. -/
def writeFields (p : Pipe) (off : BitVec 12) (v : Word) : CmdFields :=
  { code := off.setWidth 16, value := v, width := 0, pipe := bitOfPipe p, fmt := 0 }

/-- A host read at offset `off` of `p`'s bank. -/
def readFields (p : Pipe) (off : BitVec 12) : CmdFields :=
  { code := off.setWidth 16, value := 0, width := 0, pipe := bitOfPipe p, fmt := 1 }

/-- The symbol word `w` at `p`'s input. -/
def symbolFields (p : Pipe) (w : BitVec 9) : CmdFields :=
  { code := w.setWidth 16, value := 0, width := 0, pipe := bitOfPipe p, fmt := 2 }

/-- The stage step with code `code`. -/
def stepFields (p : Pipe) (code : BitVec 16) (v : Word) : CmdFields :=
  { code := code, value := v, width := 0, pipe := bitOfPipe p, fmt := 3 }

/-- The step of the agent with code `code`. -/
def agentFields (p : Pipe) (code : BitVec 16) (v : Word) : CmdFields :=
  { code := code, value := v, width := 0, pipe := bitOfPipe p, fmt := 4 }

/-- The fields of an instruction's word. -/
def instrFields : Instr → CmdFields
  | .wrFilterEnable p v => writeFields p 0x000 v
  | .wrFilterConfig p v => writeFields p 0x004 v
  | .wrTlpDllpTimeout p v => writeFields p 0x008 v
  | .wrTrigArmed p v => writeFields p 0x00C v
  | .wrTrigSize p v => writeFields p 0x010 v
  | .wrRecMode p v => writeFields p 0x014 v
  | .wrRecOffset p v => writeFields p 0x018 v
  | .wrRecSize p v => writeFields p 0x01C v
  | .start p v => writeFields p 0x020 v
  | .stop p v => writeFields p 0x024 v
  | .wrStatusTriggered p v => writeFields p 0x028 v
  | .wrStatusFinished p v => writeFields p 0x02C v
  | .wrStatusTrigAddr p v => writeFields p 0x030 v
  | .wrStatusState p v => writeFields p 0x034 v
  | .wrGeomBase p v => writeFields p 0x038 v
  | .wrGeomLength p v => writeFields p 0x03C v
  | .wrGeomChunk p v => writeFields p 0x040 v
  | .wrGeomStep p v => writeFields p 0x044 v
  | .wrPattern p i v => writeFields p (patternOffset i) v
  | .rdFilterEnable p => readFields p 0x000
  | .rdFilterConfig p => readFields p 0x004
  | .rdTlpDllpTimeout p => readFields p 0x008
  | .rdTrigArmed p => readFields p 0x00C
  | .rdTrigSize p => readFields p 0x010
  | .rdRecMode p => readFields p 0x014
  | .rdRecOffset p => readFields p 0x018
  | .rdRecSize p => readFields p 0x01C
  | .rdRecStart p => readFields p 0x020
  | .rdRecStop p => readFields p 0x024
  | .rdStatusTriggered p => readFields p 0x028
  | .rdStatusFinished p => readFields p 0x02C
  | .rdStatusTrigAddr p => readFields p 0x030
  | .rdStatusState p => readFields p 0x034
  | .rdGeomBase p => readFields p 0x038
  | .rdGeomLength p => readFields p 0x03C
  | .rdGeomChunk p => readFields p 0x040
  | .rdGeomStep p => readFields p 0x044
  | .rdPattern p i => readFields p (patternOffset i)
  | .com p => symbolFields p 0x1BC
  | .skp p => symbolFields p 0x11C
  | .fts p => symbolFields p 0x13C
  | .idl p => symbolFields p 0x17C
  | .stp p => symbolFields p 0x1FB
  | .sdp p => symbolFields p 0x15C
  | .endSym p => symbolFields p 0x1FD
  | .d215 p => symbolFields p 0x0B5
  | .d102 p => symbolFields p 0x04A
  | .d52 p => symbolFields p 0x045
  | .kOther p v => symbolFields p (1#1 ++ v)
  | .dOther p v => symbolFields p (0#1 ++ v)
  | .align p => stepFields p 0 0
  | .label p => stepFields p 1 0
  | .filtWriteFind p => stepFields p 2 0
  | .filtWriteOsbody p => stepFields p 3 0
  | .filtWritePkt p => stepFields p 4 0
  | .filtWritePass p => stepFields p 5 0
  | .filtReadPass p => stepFields p 6 0
  | .filtReadSelect p => stepFields p 7 0
  | .filtReadTsins p => stepFields p 8 0
  | .filtReadDrain p => stepFields p 9 0
  | .trig p => stepFields p 10 0
  | .recTickIdle p t => stepFields p 11 (valueOfTick t)
  | .recTickPre p t => stepFields p 12 (valueOfTick t)
  | .recTickWait p t => stepFields p 13 (valueOfTick t)
  | .recTickPost p t => stepFields p 14 (valueOfTick t)
  | .recTickDoneAbort p t => stepFields p 15 (valueOfTick t)
  | .recTickForced p t => stepFields p 16 (valueOfTick t)
  | .clock => stepFields .rx clockCode 0

/-- THE ENCODER: the word of a well-formed instruction. -/
def encode (i : Instr) : CmdWord := (instrFields i).toWord

/-- The fields of a command's word. -/
def commandFields : Command → CmdFields
  | .instr i => instrFields i
  | .agent p .aligner => agentFields p 0 0
  | .agent p .labeller => agentFields p 1 0
  | .agent p .writer => agentFields p 2 0
  | .agent p .reader => agentFields p 3 0
  | .agent p .trigger => agentFields p 4 0
  | .agent p (.recorder t) => agentFields p recorderCode (valueOfTick t)
  | .reservedWrite p off v => writeFields p off v
  | .reservedRead p off => readFields p off

/-- The word of a well-formed command. -/
def encodeCommand (c : Command) : CmdWord := (commandFields c).toWord

/-! ### Bare table words -/

/-- Whether a CSR row's match and mask select the number and its access is 4-aligned: the registers at 0x000 to 0x044 and the
PATTERN slots at 0x400 to 0x7FC (R52). -/
def isRegisterNumber (n : Nat) : Bool := decide (n % 4 = 0) && (decide (n ≤ 0x044) || decide (0x400 ≤ n) && decide (n < 0x800))

/-- A row's number of spec/opcode_table.json as a command word. The table numbers its formats independently and gives a number
no format, no pipeline, no direction and no value, so one number can match a CSR_WR, a CSR_RD and a SYM9 row, and every STEP row
has the number 0 with no bit. The model reads a number of one byte, which only the STEP rows have, as a step code at RX with no item;
a longer number that a register row selects as a host WRITE of 0 to the RX bank; and any other number below 0x200 as the SYM9 word at
the RX input. DESIGN CHOICE (log 3). -/
def tableCmd (nbits w : Nat) : CmdWord :=
  let n := w % 2 ^ nbits
  if nbits ≤ 8 then (stepFields .rx (BitVec.ofNat 16 n) 0).toWord
  else if n < 0x200 && !isRegisterNumber n then (symbolFields .rx (BitVec.ofNat 9 n)).toWord
  else BitVec.ofNat 56 n

/-- What the decoder reads from a row's number (the host's question; log 3). -/
def decodeTableWord (nbits w : Nat) : Option Instr :=
  match decode (tableCmd nbits w) with
  | .ok (.instr i) => some i
  | _ => none

end Sys2Proof
end

