-- ==== Sys2Proof/Config.lean ====
section
/-! DEFINITION. The implementation parameters of 00_scope.md R8 and the one free value of the model. -/

namespace Sys2Proof.Config

/-- The byte order in which the external memory stores a record (R8 `MEM_BYTE_ORDER`, R73). -/
inductive ByteOrder where
  | little
  | big
deriving DecidableEq, Repr

/-- `RECORD_BITS`, the width of one ring record (R8). -/
def recordBits : Nat := 32

/-- `SYNC_STAGES`, the flip-flops of the force-wire synchroniser, `rec.s1` and `rec.s2` (R8, R301). -/
def syncStages : Nat := 2

/-- The parameters of one instance of the core, as R8 lists them; only the bases, the lengths and the bank addresses differ
between RX and TX (R9). They are plain data that no step changes (log 5). -/
structure Params where
  /-- `MEM_SIZE`, the pattern-table entries. -/
  memSize : Nat
  /-- `FIFO_DEPTH`, the Frame Filter queue depth. -/
  fifoDepth : Nat
  /-- `BASE_RX`, in address units. -/
  baseRx : Nat
  /-- `BASE_TX`, in address units. -/
  baseTx : Nat
  /-- `LENGTH_RX`, in address units. -/
  lengthRx : Nat
  /-- `LENGTH_TX`, in address units. -/
  lengthTx : Nat
  /-- `ADDR_STEP`, the address units the cursor advances per record. -/
  addrStep : Nat
  /-- `DESCRAMBLE_EN`. -/
  descrambleEn : Bool
  /-- `POST_INCLUDES_TRIG`. -/
  postIncludesTrig : Bool
  /-- `CSR_BASE_RX`: the bus is out of scope (R6), and no step reads it (log 22). -/
  csrBaseRx : Nat
  /-- `CSR_BASE_TX`: as `csrBaseRx`. -/
  csrBaseTx : Nat
  /-- `MEM_BYTE_ORDER`: only a host that reads bytes sees it (R73; log 22). -/
  memByteOrder : ByteOrder
  /-- `CLOCK_RATE`: no rule depends on it (R8, R367; log 22). -/
  clockRate : Nat
deriving DecidableEq, Repr

/-- `BASE_P`. -/
def Params.base (par : Params) : Pipe → Nat
  | .rx => par.baseRx
  | .tx => par.baseTx

/-- `LENGTH_P`. -/
def Params.length (par : Params) : Pipe → Nat
  | .rx => par.lengthRx
  | .tx => par.lengthTx

/-- `CSR_BASE_P`. -/
def Params.csrBase (par : Params) : Pipe → Nat
  | .rx => par.csrBaseRx
  | .tx => par.csrBaseTx

/-- `BASE_P + LENGTH_P`, the first address after the ring. -/
def Params.limit (par : Params) (p : Pipe) : Nat := par.base p + par.length p

/-- `CAP_P = LENGTH_P / ADDR_STEP`, the ring capacity in records (R8). -/
def Params.cap (par : Params) (p : Pipe) : Nat := par.length p / par.addrStep

/-- R8's constraints on one ring. -/
abbrev Params.RingValid (par : Params) (p : Pipe) : Prop :=
  0 < par.length p ∧ par.length p % par.addrStep = 0 ∧ par.base p % par.addrStep = 0 ∧ par.limit p ≤ 2 ^ 32

/-- The constraints a configuration must meet, or the model refuses it (R8, 93_implementation_defined.md section 1). -/
abbrev Params.Valid (par : Params) : Prop :=
  1 ≤ par.memSize ∧ par.memSize ≤ 256 ∧ 1 ≤ par.fifoDepth ∧ 1 ≤ par.addrStep ∧
  par.RingValid .rx ∧ par.RingValid .tx ∧ (par.limit .rx ≤ par.baseTx ∨ par.limit .tx ≤ par.baseRx)

/-- The instance `State.reset` describes: the parameters of 95_test_vectors.md sections 0 and 6 (`MEM_SIZE` 256, `ADDR_STEP` 1,
descrambler on, trigger record counted, rings of 0x100 units at 0x000 and 0x100) and R8's defaults. DESIGN CHOICE (log 5):
`FIFO_DEPTH` 16, the bank addresses, the byte order and the clock rate, for which the spec gives no value. -/
def Params.default : Params where
  memSize := 256
  fifoDepth := 16
  baseRx := 0x000
  baseTx := 0x100
  lengthRx := 0x100
  lengthTx := 0x100
  addrStep := 1
  descrambleEn := true
  postIncludesTrig := true
  csrBaseRx := 0x0000
  csrBaseTx := 0x1000
  memByteOrder := .little
  clockRate := 1

/-- FREE VALUE. What the ring memory of pipeline `p` holds at an address nothing has written since hardware reset: any 32-bit
value (R51, R470, 93_implementation_defined.md section 3; log 10). -/
opaque ringPowerOn (p : Pipe) (addr : Nat) : Word

end Sys2Proof.Config
end

