-- ==== Sys2Proof/Machine/State.lean ====
section
/-! DEFINITION. The items the stages pass (30_encoding.md section 1), every piece of state of 10_state.md, and the reset state of
70_reset_and_hazards.md R470. -/

namespace Sys2Proof.Machine

open Sys2Proof.Config

/-! ### Items -/

/-- A byte with its control flag, the source's "Symbol" (00_scope.md R11). -/
structure SymByte where
  v : Byte
  k : Bool
deriving DecidableEq, Repr

/-- An input transfer, and an aligned transfer (R100). -/
structure Xfer where
  data : BitVec 16
  ctrl : BitVec 2
deriving DecidableEq, Repr

/-- OrderedSetType (R103). -/
inductive OsType where
  | data
  | skip
  | idle
  | fts
  | ts1
  | ts2
  | compliance
  | modifiedCompliance
deriving DecidableEq, Repr

/-- The unit passed from Classifier to Filter (R104). -/
structure ClassifiedTransfer where
  data : BitVec 16
  ctrl : BitVec 2
  os : OsType
  isOs : Bool
deriving DecidableEq, Repr

/-- FrameKind, with NONE for an item that passed while the Filter was disabled (R105). -/
inductive FrameKind where
  | skip
  | fts
  | ts1
  | ts2
  | tlp
  | dllp
  | none
deriving DecidableEq, Repr

/-- The two packet kinds (R37 `W_PKT`). -/
inductive PktKind where
  | tlp
  | dllp
deriving DecidableEq, Repr

/-- The element of the Filter FIFO (R106). -/
structure FifoItem where
  data : BitVec 16
  ctrl : BitVec 2
  kind : FrameKind
  sof : Bool
  eof : Bool
  err : Bool
  ts : Word
deriving DecidableEq, Repr

/-- The Filter's output and the Trigger Engine's input (R107). -/
structure FiltOut where
  data : BitVec 16
  ctrl : BitVec 2
  kind : FrameKind
  isTs : Bool
  sof : Bool
  eof : Bool
  err : Bool
deriving DecidableEq, Repr

/-- The Trigger Engine's output and the Recorder's input: a FiltOut and the one-shot `trig` (R108). -/
structure TrigOut where
  item : FiltOut
  trig : Bool
deriving DecidableEq, Repr

/-- One entry of the pattern table (R53, R111). -/
structure PatternEntry where
  dataByte : Byte
  dataDontcare : Bool
  ctrlBit : Bool
  ctrlDontcare : Bool
deriving DecidableEq, Repr

/-! ### The states of the stages -/

/-- Symbol Classifier state (R33 to R36) and the aligned queue (R32). -/
structure ClassifierState where
  phase : Bool
  pend : Option SymByte
  labq : List Xfer
  rem : Fin 8
  cur : OsType
  lfsr : BitVec 16
deriving DecidableEq, Repr

/-- The filter writer's state (R37): W_NO_FILTER, W_FIND, W_OS and W_PKT. -/
inductive WState where
  | noFilter
  | find
  | os (rem : Fin 8) (kind : FrameKind)
  | pkt (kind : PktKind) (c : Nat)
deriving DecidableEq, Repr

/-- Which half of a timestamp comes next (R39). -/
inductive TsHalf where
  | hi
  | lo
deriving DecidableEq, Repr

/-- The filter reader's state (R39): R_NO_FILTER, R_FILTER, R_TSI and R_READ. -/
inductive RState where
  | noFilter
  | filter
  | tsi (half : TsHalf) (ts : Word) (kind : FrameKind)
  | read (kind : FrameKind) (en : Bool) (started : Bool)
deriving DecidableEq, Repr

/-- Frame Filter state (R37 to R40). -/
structure FilterState where
  w : WState
  fifo : List FifoItem
  r : RState
  lastTs : Word
  tsValid : Bool
deriving DecidableEq, Repr

/-- The Trigger Engine's states (R41). -/
inductive TrigSt where
  | idle
  | active
  | done
deriving DecidableEq, Repr

/-- Trigger Engine state (R41, R42). -/
structure TriggerState where
  st : TrigSt
  pa : Nat
  pu : Nat
deriving DecidableEq, Repr

/-- The Recorder's states (R43, R110). -/
inductive RecSt where
  | idle
  | fillPreTrig
  | waitTrigger
  | fillPostTrig
  | done
  | abort
  | forced
deriving DecidableEq, Repr

/-- Ring Recorder state (R43 to R48). -/
structure RecorderState where
  st : RecSt
  cursor : Word
  first : Bool
  trigAddr : Word
  preCnt : Word
  postCnt : Word
  s1 : Bool
  s2 : Bool
  fprev : Bool
deriving DecidableEq, Repr

/-- REC_MODE.MODE (R52). -/
inductive RecMode where
  | raw
  | frame
deriving DecidableEq, Repr

/-- The read-write registers of a register bank, each with the width of its field (R52). -/
structure Bank where
  filterEnable : Bool
  filterConfig : BitVec 6
  timeout : Word
  trigArmed : Bool
  trigSize : BitVec 9
  recMode : RecMode
  recOffset : Word
  recSize : Word
deriving DecidableEq, Repr

/-- The ring memory of one pipeline: the records written since hardware reset, as (address, record) pairs with addresses strictly
rising; an address that is not listed holds no record (R51, R73; log 10). -/
abbrev Memory := List (Nat × Word)

/-- Everything one pipeline instance holds. -/
structure PipelineState where
  /-- The model's own field: the lane-0 byte of a transfer the input source has half delivered (log 7). -/
  srcHalf : Option SymByte
  qRaw : List Xfer
  cls : ClassifierState
  qCls : List ClassifiedTransfer
  flt : FilterState
  qFlt : List FiltOut
  trg : TriggerState
  qTrg : List TrigOut
  rcr : RecorderState
  ring : Memory
  bank : Bank
  /-- PATTERN[0..MEM_SIZE-1]. -/
  pattern : List PatternEntry
deriving DecidableEq, Repr

/-- The state of the core: the instance's parameters (R8, log 5), the two pipelines, the shared clock (R49), and the model's own
`hostRd`, the value the last host read returned (log 11), and `sched`, the commands the environment has scheduled, the next one
first (log 1). -/
structure State where
  par : Params
  rx : PipelineState
  tx : PipelineState
  clock : Word
  hostRd : Word
  sched : List CmdWord
deriving DecidableEq, Repr

/-! ### Reasons a step can stop -/

/-- Faults. The spec has none: "No condition in this core is fatal" and the core raises no exceptions (60_exceptions.md R444,
93_implementation_defined.md), so the type has no constructor and nothing raises one. -/
inductive Fault : Type
deriving DecidableEq, Repr

/-- Refusals: what the model gives no meaning (93_implementation_defined.md section 1, "a statement about the model, not about
the hardware"). Each is safe: the hardware does something there that no source says. -/
inductive Refusal where
  /-- Raised by an arm of `exec` whose instruction has no meaning yet; none is left. Safe. -/
  | notModelled (mnemonic : String)
  /-- Raised by WR_TRIG_SIZE with a value above MEM_SIZE (42_trigger.md R267, 45_host.md R395). Safe. -/
  | trigSizeAboveMemSize
  /-- Raised by `step` for a host access that is not 32 bits wide (R410). Safe. -/
  | accessNot32Bit
  /-- Raised by `step` for a host access at an offset that is not a multiple of 4 (20_memory.md R74, R410). Safe. -/
  | accessUnaligned
  /-- Raised by `step` when the parameters break the constraints of 00_scope.md R8. Safe. -/
  | badParameters
  /-- Raised by `step` for a word that encodes no command: the model's own encoding (log 2). Safe. -/
  | badCommand
deriving DecidableEq, Repr

/-! ### Reset (70_reset_and_hazards.md R470) -/

/-- The classifier at reset and at START (R161). -/
def ClassifierState.reset : ClassifierState where
  phase := false
  pend := none
  labq := []
  rem := 0
  cur := .data
  lfsr := 0xFFFF

/-- The filter at reset and at START (R214). -/
def FilterState.reset : FilterState where
  w := .noFilter
  fifo := []
  r := .noFilter
  lastTs := 0
  tsValid := false

/-- The Trigger Engine at reset and at START (R269). -/
def TriggerState.reset : TriggerState where
  st := .idle
  pa := 0
  pu := 0

/-- The Recorder at reset (R43 to R48). -/
def RecorderState.reset (base : Nat) : RecorderState where
  st := .idle
  cursor := BitVec.ofNat 32 base
  first := true
  trigAddr := BitVec.ofNat 32 base
  preCnt := 0
  postCnt := 0
  s1 := false
  s2 := false
  fprev := false

/-- The register bank at reset (R52). -/
def Bank.reset : Bank where
  filterEnable := false
  filterConfig := 0
  timeout := 0
  trigArmed := false
  trigSize := 0
  recMode := .raw
  recOffset := 0
  recSize := 0

/-- A pattern entry at reset (R53). -/
def PatternEntry.reset : PatternEntry where
  dataByte := 0
  dataDontcare := false
  ctrlBit := false
  ctrlDontcare := false

/-- Pipeline `p` at reset. -/
def PipelineState.reset (par : Params) (p : Pipe) : PipelineState where
  srcHalf := none
  qRaw := []
  cls := .reset
  qCls := []
  flt := .reset
  qFlt := []
  trg := .reset
  qTrg := []
  rcr := .reset (par.base p)
  ring := []
  bank := .reset
  pattern := List.replicate par.memSize .reset

/-- The instance with parameters `par` right after hardware reset (R470, R472). -/
def State.resetWith (par : Params) : State where
  par := par
  rx := .reset par .rx
  tx := .reset par .tx
  clock := 0
  hostRd := 0
  sched := []

/-- The machine right after reset, with the parameters `Params.default` (log 5). -/
def State.reset : State := State.resetWith Params.default

end Sys2Proof.Machine
end

