-- ==== Sys2Proof/Machine/Operands.lean ====
section
/-! DEFINITION. Operand forms: lanes, symbol words, timestamps, pattern entries, ring records and the numeric codes
(00_scope.md R11, 30_encoding.md). -/

namespace Sys2Proof.Machine

open Sys2Proof.Config

/-! ### Bytes and lanes (R10, R11, R101) -/

/-- `K(x)`: the control byte with value x. -/
def ctl (x : Byte) : SymByte := { v := x, k := true }

/-- `D(x)`: the data byte with value x. -/
def dat (x : Byte) : SymByte := { v := x, k := false }

/-- The SYM9 word `{k, v[7:0]}` of a byte (R101). -/
def SymByte.word (b : SymByte) : BitVec 9 := BitVec.ofBool b.k ++ b.v

/-- Lane 0, first in stream order: `data[15:8]` and `ctrl[1]`. -/
def lane0Of (data : BitVec 16) (ctrl : BitVec 2) : SymByte := { v := data.extractLsb' 8 8, k := ctrl.getLsbD 1 }

/-- Lane 1, second in stream order: `data[7:0]` and `ctrl[0]`. -/
def lane1Of (data : BitVec 16) (ctrl : BitVec 2) : SymByte := { v := data.extractLsb' 0 8, k := ctrl.getLsbD 0 }

/-- `lane0(t)` of a transfer. -/
def Xfer.lane0 (t : Xfer) : SymByte := lane0Of t.data t.ctrl

/-- `lane1(t)` of a transfer. -/
def Xfer.lane1 (t : Xfer) : SymByte := lane1Of t.data t.ctrl

/-- `mk(b0, b1)`. -/
def Xfer.mk2 (b0 b1 : SymByte) : Xfer := { data := b0.v ++ b1.v, ctrl := BitVec.ofBool b0.k ++ BitVec.ofBool b1.k }

/-- The bytes of a transfer sequence in stream order (R11). -/
def byteStream (ts : List Xfer) : List SymByte := ts.flatMap fun t => [t.lane0, t.lane1]

/-- `bitrev8` (R10). -/
def bitrev8 (x : Byte) : Byte := x.reverse

/-! ### Symbol codes (R102) -/

/-- `isCOM(b)`: b = K(0xBC). -/
def isCom (b : SymByte) : Bool := b == ctl 0xBC

/-- b = SKP = K(0x1C). -/
def isSkp (b : SymByte) : Bool := b == ctl 0x1C

/-- `isEnd(b)`: b = K(0xFD) (41_filter.md). -/
def isEnd (b : SymByte) : Bool := b == ctl 0xFD

/-- `isStart(b)` with `sk(b)`: STP starts a TLP, SDP a DLLP (41_filter.md). -/
def startKind (b : SymByte) : Option PktKind :=
  if b = ctl 0xFB then some .tlp else if b = ctl 0x5C then some .dllp else none

/-! ### Numeric codes -/

/-- `L(os)`: the length in transfers of a recognised set (R103); 0 for the two types that are never recognised. -/
def osLen : OsType → Nat
  | .skip | .idle | .fts | .compliance => 2
  | .ts1 | .ts2 => 8
  | .data | .modifiedCompliance => 0

/-- `L(os) - 1`, the transfers that follow the first. -/
def osRest (os : OsType) : Fin 8 := Fin.ofNat 8 (osLen os - 1)

/-- `fk`: the frame kind of a recognised ordered set, where it has one (R105). -/
def frameKindOfOs : OsType → Option FrameKind
  | .skip => some .skip
  | .fts => some .fts
  | .ts1 => some .ts1
  | .ts2 => some .ts2
  | .data | .idle | .compliance | .modifiedCompliance => none

/-- The FrameKind of a packet. -/
def PktKind.frameKind : PktKind → FrameKind
  | .tlp => .tlp
  | .dllp => .dllp

/-- OsType codes (R103). -/
def OsType.code : OsType → BitVec 3
  | .data => 0
  | .skip => 1
  | .idle => 2
  | .fts => 3
  | .ts1 => 4
  | .ts2 => 5
  | .compliance => 6
  | .modifiedCompliance => 7

/-- FrameKind codes (R105). -/
def FrameKind.code : FrameKind → BitVec 3
  | .skip => 0
  | .fts => 1
  | .ts1 => 2
  | .ts2 => 3
  | .tlp => 4
  | .dllp => 5
  | .none => 7

/-- RecState codes (R110). -/
def RecSt.code : RecSt → BitVec 3
  | .idle => 0
  | .fillPreTrig => 1
  | .waitTrigger => 2
  | .fillPostTrig => 3
  | .done => 4
  | .abort => 5
  | .forced => 6

/-- REC_MODE.MODE: 0 = RAW, 1 = FRAME (R52, R396). -/
def recModeOfBit : Bool → RecMode
  | false => .raw
  | true => .frame

/-- The bit of a mode. -/
def RecMode.bit : RecMode → Bool
  | .raw => false
  | .frame => true

/-- A Bool zero-extended to a register value (R112). -/
def boolWord (b : Bool) : Word := (BitVec.ofBool b).setWidth 32

/-! ### Timestamps (R112) -/

/-- The timestamp half a reader in `R_TSI(half, ts, kind)` emits: high half `ts[31:16]`, low half `ts[15:0]`. -/
def tsHalfData : TsHalf → Word → BitVec 16
  | .hi, ts => ts.extractLsb' 16 16
  | .lo, ts => ts.extractLsb' 0 16

/-! ### Items -/

/-- `item(x, kind, sof, eof, err, ts)` of 41_filter.md. -/
def fifoItem (x : ClassifiedTransfer) (kind : FrameKind) (sof := false) (eof := false) (err := false) (ts : Word := 0) :
    FifoItem :=
  { data := x.data, ctrl := x.ctrl, kind, sof, eof, err, ts }

/-- The payload FiltOut of a FifoItem (R107). -/
def FifoItem.payload (h : FifoItem) : FiltOut :=
  { data := h.data, ctrl := h.ctrl, kind := h.kind, isTs := false, sof := h.sof, eof := h.eof, err := h.err }

/-- A timestamp item (R107, 41_filter.md R210). -/
def tsItem (half : TsHalf) (ts : Word) (kind : FrameKind) : FiltOut :=
  { data := tsHalfData half ts, ctrl := 0, kind, isTs := true, sof := false, eof := false, err := false }

/-! ### Pattern entries (R111) -/

/-- A pattern entry from a register value; bits [31:11] are ignored. -/
def PatternEntry.ofWord (v : Word) : PatternEntry :=
  { dataByte := v.extractLsb' 0 8, dataDontcare := v.getLsbD 8, ctrlBit := v.getLsbD 9, ctrlDontcare := v.getLsbD 10 }

/-- `zext_32({ctrl_dontcare, ctrl_bit, data_dontcare, data_byte})` (45_host.md R403). -/
def PatternEntry.toWord (e : PatternEntry) : Word :=
  (BitVec.ofBool e.ctrlDontcare ++ BitVec.ofBool e.ctrlBit ++ BitVec.ofBool e.dataDontcare ++ e.dataByte).setWidth 32

/-! ### Ring records (R109) -/

/-- `pack(y, trigbit, first)`. -/
def pack (y : FiltOut) (trigBit first : Bool) : Word :=
  (y.kind.code ++ BitVec.ofBool y.err ++ BitVec.ofBool y.eof ++ BitVec.ofBool y.sof ++ BitVec.ofBool y.isTs ++
    BitVec.ofBool first ++ BitVec.ofBool trigBit ++ y.ctrl ++ y.data).setWidth 32

/-- The four bytes of a record as the memory collaborator stores them, lowest address first (`MEM_BYTE_ORDER`, 20_memory.md R73). -/
def recordBytes (order : ByteOrder) (r : Word) : List Byte :=
  match order with
  | .little => [r.extractLsb' 0 8, r.extractLsb' 8 8, r.extractLsb' 16 8, r.extractLsb' 24 8]
  | .big => [r.extractLsb' 24 8, r.extractLsb' 16 8, r.extractLsb' 8 8, r.extractLsb' 0 8]

end Sys2Proof.Machine
end

