-- ==== Sys2Proof/Machine/Flags.lean ====
section
/-! DEFINITION. Status flags and conditions, each a function of state and never stored (10_state.md R56). -/

namespace Sys2Proof.Machine

open Sys2Proof.Config

/-- TRIGGED = (trg.st = T_DONE) (R56). -/
def triggered (t : TriggerState) : Bool := t.st == .done

/-- FINISHED = (rec.st ∈ {DONE, ABORT}) (R56). -/
def finished (r : RecorderState) : Bool := r.st == .done || r.st == .abort

/-- The Recorder is capturing: one of the states that STOP aborts (45_host.md R401). -/
def isCapturing (r : RecorderState) : Bool :=
  match r.st with
  | .fillPreTrig | .waitTrigger | .fillPostTrig | .forced => true
  | .idle | .done | .abort => false

/-- `force_out_P = (rec_P.st = FILL_POST_TRIG)` (R50, 43_recorder.md R311). -/
def forceOut (r : RecorderState) : Bool := r.st == .fillPostTrig

/-- `counted(y)`: whether a record of `y` is a unit of `offset` and `size` (43_recorder.md R302). -/
def counted (mode : RecMode) (y : TrigOut) : Bool := mode == .raw || !y.item.isTs

/-- `cfg.MASK[kind]`: FILTER_CONFIG bit i enables kind code i (30_encoding.md R105). -/
def kindEnabled (mask : BitVec 6) (kind : FrameKind) : Bool := mask.getLsbD kind.code.toNat

/-- `m(e, b)`: a pattern entry matches a byte (42_trigger.md R260). -/
def entryMatches (e : PatternEntry) (b : SymByte) : Bool :=
  (e.dataDontcare || e.dataByte == b.v) && (e.ctrlDontcare || e.ctrlBit == b.k)

/-- FINISHED's count test: a unit count has reached a 32-bit bound (43_recorder.md R306 to R308). -/
def reached (count bound : Word) : Bool := bound.ule count

end Sys2Proof.Machine
end

