-- ==== Sys2Proof/Machine/Ops.lean ====
section
/-! DEFINITION. The named operations over state that the meanings share: pipelines, the ring memory, the Recorder's write, the
shape of an agent's step and of a host access, and fetching the next command.

The core raises no exception and returns from none (60_exceptions.md R444, R447), so there is no exception entry here. -/

namespace Sys2Proof.Machine

open Sys2Proof.Config Host

/-! ### Pipelines -/

/-- The state of pipeline `p`. -/
def State.pipe (s : State) : Pipe → PipelineState
  | .rx => s.rx
  | .tx => s.tx

/-- `s` with pipeline `p`'s state replaced. -/
def State.setPipe (s : State) (p : Pipe) (q : PipelineState) : State :=
  match p with
  | .rx => { s with rx := q }
  | .tx => { s with tx := q }

/-! ### Ring memory (20_memory.md) -/

/-- The record at an address, or none where nothing has been written since reset (10_state.md R51). -/
def ringRead : Memory → Nat → Option Word
  | [], _ => none
  | (b, w) :: rest, a => if a = b then some w else ringRead rest a

/-- `MemWrite(a, 32, w)`: the record at `a` is replaced as a whole; addresses stay strictly rising (R75, R78). -/
def ringWrite : Memory → Nat → Word → Memory
  | [], a, w => [(a, w)]
  | (b, x) :: rest, a, w =>
    if a < b then (a, w) :: (b, x) :: rest
    else if a = b then (a, w) :: rest
    else (b, x) :: ringWrite rest a w

/-- The canonical form: addresses strictly rising. -/
def Memory.wf : Memory → Bool
  | [] => true
  | [_] => true
  | (a, _) :: (b, w) :: rest => decide (a < b) && Memory.wf ((b, w) :: rest)

/-- What a host read of ring memory gives where the host sees the ring as `r` (45_host.md R411, 20_memory.md R78): the record, or the
free value of an address nothing has written (93_implementation_defined.md section 3; log 10). No step performs it: it is outside the
core. Which of the ring's contents so far the host sees is free while the pipeline captures: `RingView` (20_memory.md R75, R80; log 32). -/
def hostRingRead (p : Pipe) (r : Memory) (a : Nat) : Word := (ringRead r a).getD (ringPowerOn p a)

/-- Which bank a host address selects, and the offset in it (10_state.md R52). The bus is out of scope (R6): an access reaches the
core as `(P, offset)` (30_encoding.md R114; log 22). DESIGN CHOICE (log 31): the spec does not say that the two 4096-byte banks are
disjoint (R8), nor which one an address in both selects, and here RX has it. No step calls this. -/
def bankOfAddress (par : Params) (a : Nat) : Option (Pipe × BitVec 12) :=
  if par.csrBaseRx ≤ a ∧ a < par.csrBaseRx + 4096 then some (.rx, BitVec.ofNat 12 (a - par.csrBaseRx))
  else if par.csrBaseTx ≤ a ∧ a < par.csrBaseTx + 4096 then some (.tx, BitVec.ofNat 12 (a - par.csrBaseTx))
  else none

/-! ### The Recorder's write (43_recorder.md R303, R304) -/

/-- `next(c)`: the cursor advances by ADDR_STEP and wraps to BASE_P; the sum is computed without wrap at 32 bits (R304). -/
def nextCursor (par : Params) (p : Pipe) (c : Word) : Word :=
  if par.limit p ≤ c.toNat + par.addrStep then BitVec.ofNat 32 (par.base p) else BitVec.ofNat 32 (c.toNat + par.addrStep)

/-- `WRITE(y, tb)` (R303). -/
def writeRecord (par : Params) (p : Pipe) (y : TrigOut) (tb : Bool) (q : PipelineState) : PipelineState :=
  { q with
    ring := ringWrite q.ring q.rcr.cursor.toNat (pack y.item tb q.rcr.first)
    rcr := { q.rcr with first := false, cursor := nextCursor par p q.rcr.cursor } }

/-- The Recorder's ring initialisation at START and at entry to FORCED (45_host.md R400, 43_recorder.md R305): cursor and trigAddr
to BASE_P, `first` to 1, counts to 0. -/
def initCapture (par : Params) (p : Pipe) (r : RecorderState) : RecorderState :=
  { r with
    cursor := BitVec.ofNat 32 (par.base p)
    first := true
    trigAddr := BitVec.ofNat 32 (par.base p)
    preCnt := 0
    postCnt := 0 }

/-! ### Shapes of steps -/

/-- One step of a stage agent of pipeline `p`. `act` is the row's action: none where the agent is not enabled or its state does not
select the row, and then the agent does not step (00_scope.md R12, 30_encoding.md R114; log 4). -/
def agentStep (p : Pipe) (act : PipelineState → Option PipelineState) (s : State) : Outcome State Fault Refusal :=
  match act (s.pipe p) with
  | none => .next s
  | some q => .next (s.setPipe p q)

/-- A host write that changes pipeline `p` only (45_host.md R390). -/
def hostWrite (p : Pipe) (f : PipelineState → PipelineState) (s : State) : Outcome State Fault Refusal :=
  .next (s.setPipe p (f (s.pipe p)))

/-- A host write to one register of the bank. -/
def bankWrite (p : Pipe) (f : Bank → Bank) (s : State) : Outcome State Fault Refusal :=
  hostWrite p (fun q => { q with bank := f q.bank }) s

/-- A host write that is ignored (R409). -/
def ignoredWrite (s : State) : Outcome State Fault Refusal := .next s

/-- A host read that returns `v` and has no other effect (20_memory.md R75; log 11). -/
def hostRead (v : Word) (s : State) : Outcome State Fault Refusal := .next { s with hostRd := v }

/-- The input source of `p` delivers a byte: the first of a pair is held as lane 0, the second completes the transfer, which is
pushed on `q_raw` (44_pipeline.md R362, 00_scope.md R11; log 7). -/
def deliver (p : Pipe) (b : SymByte) (s : State) : Outcome State Fault Refusal :=
  hostWrite p (fun q =>
    match q.srcHalf with
    | none => { q with srcHalf := some b }
    | some a => { q with srcHalf := none, qRaw := q.qRaw ++ [Xfer.mk2 a b] }) s

/-! ### The next command -/

/-- The environment's next command word and the state after it is taken, or none where nothing is scheduled (log 1). -/
def fetch (s : State) : Option (CmdWord × State) :=
  match s.sched with
  | [] => none
  | w :: rest => some (w, { s with sched := rest })

end Sys2Proof.Machine
end

