-- ==== Sys2Proof/Machine/Classifier.lean ====
section
/-! DEFINITION. The Symbol Classifier: lane aligner, ordered-set labeller and descrambler (40_classifier.md). -/

namespace Sys2Proof.Machine

open Sys2Proof.Config Host

/-! ### Lane aligner (R150) -/

/-- One raw transfer at the aligner. COM on lane 1 only realigns in phase 0 and drops the lane-0 byte; COM on lane 0 only realigns
back in phase 1 and drops the held byte (R150, R151). Phase 1 always holds a byte (10_state.md R34); without one the aligner takes
no step (log 14). -/
def alignTransfer (r : Xfer) (c : ClassifierState) : Option ClassifierState :=
  let h := r.lane0
  let l := r.lane1
  if c.phase then
    match c.pend with
    | none => none
    | some b =>
      if isCom l || !isCom h then some { c with labq := c.labq ++ [Xfer.mk2 b h], pend := some l }
      else some { c with phase := false, pend := none, labq := c.labq ++ [Xfer.mk2 h l] }
  else if isCom h || !isCom l then some { c with labq := c.labq ++ [Xfer.mk2 h l] }
  else some { c with phase := true, pend := some l }

/-- ALIGN's action (R150): enabled when `q_raw` is not empty. -/
def alignAction (q : PipelineState) : Option PipelineState :=
  match q.qRaw with
  | [] => none
  | r :: rest => (alignTransfer r q.cls).map fun c => { q with qRaw := rest, cls := c }

/-- ALIGN: one step of the lane aligner (R150). -/
def execAlign (p : Pipe) (s : State) : Outcome State Fault Refusal := agentStep p alignAction s

/-! ### Ordered-set labeller (R152 to R155) -/

/-- The window `a0, a1, …` of the first 8 transfers of the aligned queue, or as many bytes of it as have arrived (R152). -/
def window (labq : List Xfer) : List SymByte := byteStream (labq.take 8)

/-- Rows 1 to 4 of the recognition table, which need `a0` to `a3` (R153). -/
def shortSetType : List SymByte → Option OsType
  | _ :: a1 :: a2 :: a3 :: _ =>
    if a1 = ctl 0x1C ∧ a2 = ctl 0x1C ∧ a3 = ctl 0x1C then some .skip
    else if a1 = ctl 0x3C ∧ a2 = ctl 0x3C ∧ a3 = ctl 0x3C then some .fts
    else if a1 = ctl 0x7C ∧ a2 = ctl 0x7C ∧ a3 = ctl 0x7C then some .idle
    else if a1 = dat 0xB5 ∧ a2 = ctl 0xBC ∧ a3 = dat 0x4A then some .compliance
    else none
  | _ => none

/-- Rows 5 to 7, which need `a0` to `a15` (R153): none of `a1` to `a5` is COM, and `a6` to `a15` are the identifier. -/
def longSetType (win : List SymByte) : OsType :=
  let fields := (win.drop 1).take 5
  let ident := win.drop 6
  if fields.all (fun b => !isCom b) && ident == List.replicate 10 (dat 0x4A) then .ts1
  else if fields.all (fun b => !isCom b) && ident == List.replicate 10 (dat 0x45) then .ts2
  else .data

/-- `cls_type(window)`: the first row that holds gives the type (R153). -/
def clsType (win : List SymByte) : OsType := (shortSetType win).getD (longSetType win)

/-- The labeller's enabling condition at a queue with head `x` (R155). -/
def labelEnabled (c : ClassifierState) (x : Xfer) : Bool :=
  decide (c.rem ≠ 0) || !isCom x.lane0 || (shortSetType (window c.labq)).isSome || decide (8 ≤ c.labq.length)

/-- The label of the head `x` of the aligned queue, with `cls.rem` and `cls.cur` after it (R155). -/
def labelHead (c : ClassifierState) (x : Xfer) : OsType × Fin 8 × OsType :=
  if c.rem ≠ 0 then (c.cur, c.rem - 1, c.cur)
  else if !isCom x.lane0 then (.data, c.rem, c.cur)
  else
    let os := clsType (window c.labq)
    if os = .data then (.data, c.rem, c.cur) else (os, osRest os, os)

/-! ### Descrambler (R156 to R158) -/

/-- One serial shift of the LFSR, G(X) = X^16 + X^5 + X^4 + X^3 + 1 (R157). -/
def lfsrShift (l : BitVec 16) : BitVec 16 := (l <<< 1) ^^^ (if l.getLsbD 15 then 0x0039 else 0x0000)

/-- `adv(l)`: eight serial shifts (R157). -/
def lfsrAdvance (l : BitVec 16) : BitVec 16 := Nat.repeat lfsrShift 8 l

/-- `key(l)` (R157). -/
def lfsrKey (l : BitVec 16) : Byte := bitrev8 (l.extractLsb' 8 8)

/-- The ordered sets whose data bytes are not scrambled (R156). -/
def unscrambledSet : OsType → Bool
  | .ts1 | .ts2 | .compliance | .modifiedCompliance => true
  | .data | .skip | .idle | .fts => false

/-- DESCRAMBLE_BYTE(b, os, l) (R156). -/
def descrambleByte (enable : Bool) (os : OsType) (b : SymByte) (l : BitVec 16) : SymByte × BitVec 16 :=
  if isCom b then (b, 0xFFFF)
  else if isSkp b then (b, l)
  else if !b.k && !unscrambledSet os && enable then ({ v := b.v ^^^ lfsrKey l, k := false }, lfsrAdvance l)
  else (b, lfsrAdvance l)

/-- DESCRAMBLE: the two bytes of a transfer in stream order (R158). -/
def descramble (enable : Bool) (x : Xfer) (os : OsType) (l : BitVec 16) : BitVec 16 × BitVec 16 :=
  let (b0, l1) := descrambleByte enable os x.lane0 l
  let (b1, l2) := descrambleByte enable os x.lane1 l1
  (b0.v ++ b1.v, l2)

/-- LABEL's action (R155), with DESCRAMBLE in the same step. -/
def labelAction (par : Params) (q : PipelineState) : Option PipelineState :=
  match q.cls.labq with
  | [] => none
  | x :: rest =>
    if labelEnabled q.cls x then
      let (os, rem, cur) := labelHead q.cls x
      let (data, lfsr) := descramble par.descrambleEn x os q.cls.lfsr
      some { q with
        cls := { q.cls with labq := rest, rem := rem, cur := cur, lfsr := lfsr }
        qCls := q.qCls ++ [{ data := data, ctrl := x.ctrl, os := os, isOs := os != .data }] }
    else none

/-- LABEL: one step of the labeller (R155). -/
def execLabel (p : Pipe) (s : State) : Outcome State Fault Refusal := agentStep p (labelAction s.par) s

end Sys2Proof.Machine
end

