-- ==== Sys2Proof/Machine/Clock.lean ====
section
/-! DEFINITION. The clock agent (44_pipeline.md R367). -/

namespace Sys2Proof.Machine

open Sys2Proof.Config Host

/-- CLOCK: `clock <- (clock + 1) mod 2^32` and nothing else (R367). -/
def execClock (s : State) : Outcome State Fault Refusal := .next { s with clock := s.clock + 1 }

end Sys2Proof.Machine
end

