-- ==== Sys2Proof/Machine/FrameFilter.lean ====
section
/-! DEFINITION. The Frame Filter: writer, FIFO, reader and timestamps (41_filter.md). -/

namespace Sys2Proof.Machine

open Sys2Proof.Config Host

/-! ### Writer (R200 to R206) -/

/-- Admit an item to the FIFO and move the writer. -/
def FilterState.enqueue (f : FilterState) (it : FifoItem) (w : WState) : FilterState :=
  { f with fifo := f.fifo ++ [it], w := w }

/-- FIND(x): a recognised SKIP, FTS, TS1 or TS2 opens an ordered-set frame, else a start symbol on lane 0, else one on lane 1 opens a
packet frame, else `x` is filler and is dropped (R201, R202). -/
def writeFind (clock : Word) (x : ClassifiedTransfer) (f : FilterState) : FilterState :=
  let b0 := lane0Of x.data x.ctrl
  let b1 := lane1Of x.data x.ctrl
  match (if isCom b0 then frameKindOfOs x.os else none) with
  | some k => f.enqueue (fifoItem x k (sof := true) (ts := clock)) (.os (osRest x.os) k)
  | none =>
    match startKind b0 with
    | some k =>
      f.enqueue (fifoItem x k.frameKind (sof := true) (eof := isEnd b1) (ts := clock)) (if isEnd b1 then .find else .pkt k 0)
    | none =>
      match startKind b1 with
      | some k => f.enqueue (fifoItem x k.frameKind (sof := true) (ts := clock)) (.pkt k 0)
      | none => { f with w := .find }

/-- OSBODY(x, rem, k): the body is counted, not checked (R203). -/
def writeOsBody (x : ClassifiedTransfer) (rem : Fin 8) (k : FrameKind) (f : FilterState) : FilterState :=
  f.enqueue (fifoItem x k (eof := rem == 1)) (if rem = 1 then .find else .os (rem - 1) k)

/-- PKT(x, k, c): preemption by a start symbol, then the timeout, then a normal end, then payload (R204, R205, R446). -/
def writePkt (clock timeout : Word) (x : ClassifiedTransfer) (k : PktKind) (c : Nat) (f : FilterState) : FilterState :=
  let b0 := lane0Of x.data x.ctrl
  let b1 := lane1Of x.data x.ctrl
  if (startKind b0).isSome || (startKind b1).isSome then writeFind clock x f
  else if timeout.toNat < c + 1 then f.enqueue (fifoItem x k.frameKind (eof := true) (err := true)) .find
  else if isEnd b0 || isEnd b1 then f.enqueue (fifoItem x k.frameKind (eof := true)) .find
  else f.enqueue (fifoItem x k.frameKind) (.pkt k (c + 1))

/-- The writer passes everything while the Filter is disabled (R200, R206). -/
def writePass (x : ClassifiedTransfer) (f : FilterState) : FilterState := f.enqueue (fifoItem x .none) .noFilter

/-- WRITE's enabling condition and the shape of its step: `act` is the row's action at the head of `q_cls`, none where FILTER_ENABLE
and `flt.w` select another row (R200). -/
def writerAction (par : Params) (act : Bank → ClassifiedTransfer → FilterState → Option FilterState) (q : PipelineState) :
    Option PipelineState :=
  match q.qCls with
  | [] => none
  | x :: rest =>
    if q.flt.fifo.length < par.fifoDepth then (act q.bank x q.flt).map fun f => { q with qCls := rest, flt := f } else none

/-- The FIND row: enabled Filter, in W_FIND, which W_NO_FILTER becomes with the same item (R200; log 9). -/
def findRow (clock : Word) (b : Bank) (x : ClassifiedTransfer) (f : FilterState) : Option FilterState :=
  if !b.filterEnable then none
  else match f.w with
    | .noFilter | .find => some (writeFind clock x f)
    | .os _ _ | .pkt _ _ => none

/-- The OSBODY row: enabled Filter, in W_OS (R200). -/
def osBodyRow (b : Bank) (x : ClassifiedTransfer) (f : FilterState) : Option FilterState :=
  if !b.filterEnable then none
  else match f.w with
    | .os rem k => some (writeOsBody x rem k f)
    | .noFilter | .find | .pkt _ _ => none

/-- The PKT row: enabled Filter, in W_PKT (R200). -/
def pktRow (clock : Word) (b : Bank) (x : ClassifiedTransfer) (f : FilterState) : Option FilterState :=
  if !b.filterEnable then none
  else match f.w with
    | .pkt k c => some (writePkt clock b.timeout x k c f)
    | .noFilter | .find | .os _ _ => none

/-- The PASS row: disabled Filter, in any writer state (R200, R206; log 9). -/
def passRow (b : Bank) (x : ClassifiedTransfer) (f : FilterState) : Option FilterState :=
  if b.filterEnable then none else some (writePass x f)

/-- FILT_WRITE_FIND (R201). -/
def execFiltWriteFind (p : Pipe) (s : State) : Outcome State Fault Refusal :=
  agentStep p (writerAction s.par (findRow s.clock)) s

/-- FILT_WRITE_OSBODY (R203). -/
def execFiltWriteOsbody (p : Pipe) (s : State) : Outcome State Fault Refusal := agentStep p (writerAction s.par osBodyRow) s

/-- FILT_WRITE_PKT (R204). -/
def execFiltWritePkt (p : Pipe) (s : State) : Outcome State Fault Refusal :=
  agentStep p (writerAction s.par (pktRow s.clock)) s

/-- FILT_WRITE_PASS (R206). -/
def execFiltWritePass (p : Pipe) (s : State) : Outcome State Fault Refusal := agentStep p (writerAction s.par passRow) s

/-! ### Reader (R207 to R211) -/

/-- What a reader step leaves and what it emits. -/
abbrev ReadResult := FilterState × List FiltOut

/-- READ's switch out of filtering: any state but R_NO_FILTER with `cfg.FE = 0`, no pop and no emit (R207; log 8). -/
def readDisable (f : FilterState) : ReadResult := ({ f with r := .noFilter }, [])

/-- PASS (R208), with READ's switch into filtering from R_NO_FILTER (R207; log 8). -/
def readPass (b : Bank) (f : FilterState) : Option ReadResult :=
  match f.r with
  | .noFilter =>
    if b.filterEnable then some ({ f with r := .filter }, [])
    else match f.fifo with
      | [] => none
      | h :: rest => some ({ f with fifo := rest }, [h.payload])
  | .filter | .tsi _ _ _ | .read _ _ _ => none

/-- SELECT (R209): the head is discarded where it starts no frame; otherwise the frame's timestamp is compared with the last one
examined, which it replaces even when the frame's kind is disabled. -/
def readSelect (b : Bank) (f : FilterState) : Option ReadResult :=
  match f.r with
  | .filter =>
    if !b.filterEnable then some (readDisable f)
    else match f.fifo with
      | [] => none
      | h :: rest =>
        if !h.sof then some ({ f with fifo := rest }, [])
        else
          let en := kindEnabled b.filterConfig h.kind
          let newTs := !f.tsValid || h.ts != f.lastTs
          some ({ f with
            lastTs := h.ts
            tsValid := true
            r := if en && newTs then .tsi .hi h.ts h.kind else .read h.kind en false }, [])
  | .noFilter | .tsi _ _ _ | .read _ _ _ => none

/-- TSINS (R210): the high half of the timestamp, then the low half; the FIFO is not touched. -/
def readTsins (b : Bank) (f : FilterState) : Option ReadResult :=
  match f.r with
  | .tsi half ts k =>
    if !b.filterEnable then some (readDisable f)
    else match half with
      | .hi => some ({ f with r := .tsi .lo ts k }, [tsItem .hi ts k])
      | .lo => some ({ f with r := .read k true false }, [tsItem .lo ts k])
  | .noFilter | .filter | .read _ _ _ => none

/-- DRAIN (R211): the next frame's start ends a preempted frame without a pop; otherwise the head is popped, emitted where the frame's
kind is enabled, and ends the frame where it has `eof` or `err`. -/
def readDrain (b : Bank) (f : FilterState) : Option ReadResult :=
  match f.r with
  | .read k en started =>
    if !b.filterEnable then some (readDisable f)
    else match f.fifo with
      | [] => none
      | h :: rest =>
        if started && h.sof then some ({ f with r := .filter }, [])
        else some
          ({ f with fifo := rest, r := if h.eof || h.err then .filter else .read k en true }, if en then [h.payload] else [])
  | .noFilter | .filter | .tsi _ _ _ => none

/-- The shape of a reader step (R207). -/
def readerAction (row : Bank → FilterState → Option ReadResult) (q : PipelineState) : Option PipelineState :=
  (row q.bank q.flt).map fun (f, out) => { q with flt := f, qFlt := q.qFlt ++ out }

/-- FILT_READ_PASS: the reader's step in R_NO_FILTER (R207, R208). -/
def execFiltReadPass (p : Pipe) (s : State) : Outcome State Fault Refusal := agentStep p (readerAction readPass) s

/-- FILT_READ_SELECT: the reader's step in R_FILTER (R207, R209). -/
def execFiltReadSelect (p : Pipe) (s : State) : Outcome State Fault Refusal := agentStep p (readerAction readSelect) s

/-- FILT_READ_TSINS: the reader's step in R_TSI (R207, R210). -/
def execFiltReadTsins (p : Pipe) (s : State) : Outcome State Fault Refusal := agentStep p (readerAction readTsins) s

/-- FILT_READ_DRAIN: the reader's step in R_READ (R207, R211). -/
def execFiltReadDrain (p : Pipe) (s : State) : Outcome State Fault Refusal := agentStep p (readerAction readDrain) s

end Sys2Proof.Machine
end

