-- ==== Sys2Proof/Machine/HostCommand.lean ====
section
/-! DEFINITION. START and STOP, the pattern table, the status and geometry registers, and the accesses that have no effect
(45_host.md R400 to R409). -/

namespace Sys2Proof.Machine

open Sys2Proof.Config Host

/-- START's effect on its own pipeline, in one atomic step (R400). -/
def startPipeline (par : Params) (p : Pipe) (q : PipelineState) : PipelineState :=
  { q with
    cls := .reset
    qCls := []
    flt := .reset
    qFlt := []
    trg := .reset
    qTrg := []
    rcr := { initCapture par p q.rcr with st := if q.bank.recOffset = 0 then .waitTrigger else .fillPreTrig } }

/-- START: a write of REC_START, which performs the command where `v[0] = 1` and does nothing otherwise (R400). -/
def execStart (p : Pipe) (v : Word) (s : State) : Outcome State Fault Refusal :=
  if v.getLsbD 0 then hostWrite p (startPipeline s.par p) s else ignoredWrite s

/-- STOP's move of the Recorder (R401). -/
def stopState : RecSt → RecSt
  | .fillPreTrig | .waitTrigger | .fillPostTrig | .forced => .abort
  | .done | .abort => .idle
  | .idle => .idle

/-- STOP: a write of REC_STOP, which performs the command where `v[0] = 1` and does nothing otherwise (R401). -/
def execStop (p : Pipe) (v : Word) (s : State) : Outcome State Fault Refusal :=
  if v.getLsbD 0 then hostWrite p (fun q => { q with rcr := { q.rcr with st := stopState q.rcr.st } }) s else ignoredWrite s

/-- WR PATTERN[i]: entry i only, and a slot at or above MEM_SIZE is reserved and ignores the write (R402). -/
def execWrPattern (p : Pipe) (i : Byte) (v : Word) (s : State) : Outcome State Fault Refusal :=
  if i.toNat < s.par.memSize then
    hostWrite p (fun q => { q with pattern := q.pattern.set i.toNat (PatternEntry.ofWord v) }) s
  else ignoredWrite s

/-- RD PATTERN[i]: the entry, or 0 for a slot at or above MEM_SIZE (R403). -/
def execRdPattern (p : Pipe) (i : Byte) (s : State) : Outcome State Fault Refusal :=
  hostRead (if i.toNat < s.par.memSize then ((s.pipe p).pattern.getD i.toNat .reset).toWord else 0) s

/-- Read STATUS_TRIGGERED (R404). -/
def execRdStatusTriggered (p : Pipe) (s : State) : Outcome State Fault Refusal :=
  hostRead (boolWord (triggered (s.pipe p).trg)) s

/-- Read STATUS_FINISHED (R405). -/
def execRdStatusFinished (p : Pipe) (s : State) : Outcome State Fault Refusal :=
  hostRead (boolWord (finished (s.pipe p).rcr)) s

/-- Read STATUS_TRIG_ADDR (R406). -/
def execRdStatusTrigAddr (p : Pipe) (s : State) : Outcome State Fault Refusal := hostRead (s.pipe p).rcr.trigAddr s

/-- Read STATUS_STATE (R407). -/
def execRdStatusState (p : Pipe) (s : State) : Outcome State Fault Refusal :=
  hostRead ((s.pipe p).rcr.st.code.setWidth 32) s

/-- Read GEOM_BASE (R408). -/
def execRdGeomBase (p : Pipe) (s : State) : Outcome State Fault Refusal := hostRead (BitVec.ofNat 32 (s.par.base p)) s

/-- Read GEOM_LENGTH (R408). -/
def execRdGeomLength (p : Pipe) (s : State) : Outcome State Fault Refusal := hostRead (BitVec.ofNat 32 (s.par.length p)) s

/-- Read GEOM_CHUNK: RECORD_BITS (R408). -/
def execRdGeomChunk (_p : Pipe) (s : State) : Outcome State Fault Refusal := hostRead (BitVec.ofNat 32 recordBits) s

/-- Read GEOM_STEP: ADDR_STEP (R408). -/
def execRdGeomStep (_p : Pipe) (s : State) : Outcome State Fault Refusal := hostRead (BitVec.ofNat 32 s.par.addrStep) s

/-- A read of REC_START returns 0 and performs nothing (R409). -/
def execRdRecStart (_p : Pipe) (s : State) : Outcome State Fault Refusal := hostRead 0 s

/-- A read of REC_STOP returns 0 and performs nothing (R409). -/
def execRdRecStop (_p : Pipe) (s : State) : Outcome State Fault Refusal := hostRead 0 s

/-- A write of the read-only STATUS_TRIGGERED is ignored (R409). -/
def execWrStatusTriggered (_p : Pipe) (_v : Word) (s : State) : Outcome State Fault Refusal := ignoredWrite s

/-- A write of the read-only STATUS_FINISHED is ignored (R409). -/
def execWrStatusFinished (_p : Pipe) (_v : Word) (s : State) : Outcome State Fault Refusal := ignoredWrite s

/-- A write of the read-only STATUS_TRIG_ADDR is ignored (R409). -/
def execWrStatusTrigAddr (_p : Pipe) (_v : Word) (s : State) : Outcome State Fault Refusal := ignoredWrite s

/-- A write of the read-only STATUS_STATE is ignored (R409). -/
def execWrStatusState (_p : Pipe) (_v : Word) (s : State) : Outcome State Fault Refusal := ignoredWrite s

/-- A write of the read-only GEOM_BASE is ignored (R409). -/
def execWrGeomBase (_p : Pipe) (_v : Word) (s : State) : Outcome State Fault Refusal := ignoredWrite s

/-- A write of the read-only GEOM_LENGTH is ignored (R409). -/
def execWrGeomLength (_p : Pipe) (_v : Word) (s : State) : Outcome State Fault Refusal := ignoredWrite s

/-- A write of the read-only GEOM_CHUNK is ignored (R409). -/
def execWrGeomChunk (_p : Pipe) (_v : Word) (s : State) : Outcome State Fault Refusal := ignoredWrite s

/-- A write of the read-only GEOM_STEP is ignored (R409). -/
def execWrGeomStep (_p : Pipe) (_v : Word) (s : State) : Outcome State Fault Refusal := ignoredWrite s

end Sys2Proof.Machine
end

