-- ==== Sys2Proof/Machine/HostConfig.lean ====
section
/-! DEFINITION. Writes and reads of the configuration registers (45_host.md R391 to R399). -/

namespace Sys2Proof.Machine

open Sys2Proof.Config Host

/-- FILTER_ENABLE <- v[0] (R391). -/
def execWrFilterEnable (p : Pipe) (v : Word) (s : State) : Outcome State Fault Refusal :=
  bankWrite p (fun b => { b with filterEnable := v.getLsbD 0 }) s

/-- FILTER_CONFIG <- v[5:0] (R392). -/
def execWrFilterConfig (p : Pipe) (v : Word) (s : State) : Outcome State Fault Refusal :=
  bankWrite p (fun b => { b with filterConfig := v.extractLsb' 0 6 }) s

/-- TLP_DLLP_TIMEOUT <- v (R393). -/
def execWrTlpDllpTimeout (p : Pipe) (v : Word) (s : State) : Outcome State Fault Refusal :=
  bankWrite p (fun b => { b with timeout := v }) s

/-- TRIG_ARMED <- v[0] (R394). -/
def execWrTrigArmed (p : Pipe) (v : Word) (s : State) : Outcome State Fault Refusal :=
  bankWrite p (fun b => { b with trigArmed := v.getLsbD 0 }) s

/-- WR_TRIG_SIZE: TRIG_SIZE <- v, refused where the full 32-bit value is above MEM_SIZE (R395, 42_trigger.md R267). -/
def execWrTrigSize (p : Pipe) (v : Word) (s : State) : Outcome State Fault Refusal :=
  if s.par.memSize < v.toNat then .refused .trigSizeAboveMemSize
  else bankWrite p (fun b => { b with trigSize := v.extractLsb' 0 9 }) s

/-- REC_MODE <- v[0] (R396). -/
def execWrRecMode (p : Pipe) (v : Word) (s : State) : Outcome State Fault Refusal :=
  bankWrite p (fun b => { b with recMode := recModeOfBit (v.getLsbD 0) }) s

/-- REC_OFFSET <- v (R397). -/
def execWrRecOffset (p : Pipe) (v : Word) (s : State) : Outcome State Fault Refusal :=
  bankWrite p (fun b => { b with recOffset := v }) s

/-- REC_SIZE <- v (R398). -/
def execWrRecSize (p : Pipe) (v : Word) (s : State) : Outcome State Fault Refusal :=
  bankWrite p (fun b => { b with recSize := v }) s

/-- Read FILTER_ENABLE: the stored field, zero-extended (R399). -/
def execRdFilterEnable (p : Pipe) (s : State) : Outcome State Fault Refusal := hostRead (boolWord (s.pipe p).bank.filterEnable) s

/-- Read FILTER_CONFIG: the stored field, zero-extended (R399). -/
def execRdFilterConfig (p : Pipe) (s : State) : Outcome State Fault Refusal := hostRead ((s.pipe p).bank.filterConfig.setWidth 32) s

/-- Read TLP_DLLP_TIMEOUT: the stored field, zero-extended (R399). -/
def execRdTlpDllpTimeout (p : Pipe) (s : State) : Outcome State Fault Refusal := hostRead (s.pipe p).bank.timeout s

/-- Read TRIG_ARMED: the stored field, zero-extended (R399). -/
def execRdTrigArmed (p : Pipe) (s : State) : Outcome State Fault Refusal := hostRead (boolWord (s.pipe p).bank.trigArmed) s

/-- Read TRIG_SIZE: the stored field, zero-extended (R399). -/
def execRdTrigSize (p : Pipe) (s : State) : Outcome State Fault Refusal := hostRead ((s.pipe p).bank.trigSize.setWidth 32) s

/-- Read REC_MODE: the stored field, zero-extended (R399). -/
def execRdRecMode (p : Pipe) (s : State) : Outcome State Fault Refusal := hostRead (boolWord (s.pipe p).bank.recMode.bit) s

/-- Read REC_OFFSET: the stored field, zero-extended (R399). -/
def execRdRecOffset (p : Pipe) (s : State) : Outcome State Fault Refusal := hostRead (s.pipe p).bank.recOffset s

/-- Read REC_SIZE: the stored field, zero-extended (R399). -/
def execRdRecSize (p : Pipe) (s : State) : Outcome State Fault Refusal := hostRead (s.pipe p).bank.recSize s

end Sys2Proof.Machine
end

