-- ==== Sys2Proof/Machine/Recorder.lean ====
section
/-! DEFINITION. The Ring Recorder (43_recorder.md). -/

namespace Sys2Proof.Machine

open Sys2Proof.Config Host

/-! ### One tick (R300) -/

/-- What a tick's state action sees besides the pipeline: the item, the synchronised force `f` and its rising edge (R300, R301). -/
structure TickInput where
  y : Option TrigOut
  f : Bool
  rise : Bool
deriving DecidableEq, Repr

/-- What the tick's state action sees where the tick's item is `y` and the Recorder was in `r` before the tick: `f` is the second
synchroniser stage, and a rise is `f` without the last tick's `f` (R300, R301). -/
def tickSees (y : Option TrigOut) (r : RecorderState) : TickInput := { y := y, f := r.s2, rise := r.s2 && !r.fprev }

/-- Whether the tick's state action writes a record, and so needs the sink (R300, R314). -/
def tickWrites (st : RecSt) (i : TickInput) : Bool :=
  i.y.isSome &&
  match st with
  | .idle => i.rise
  | .fillPreTrig | .waitTrigger | .fillPostTrig => true
  | .done | .abort => false
  | .forced => i.f

/-- The tick's item and the pipeline without it: an item tick pops `q_trg` and is not enabled on an empty queue (R300). -/
def tickItem (t : Tick) (q : PipelineState) : Option (Option TrigOut × PipelineState) :=
  match t with
  | .idle => some (none, q)
  | .item _ =>
    match q.qTrg with
    | [] => none
    | y :: rest => some (some y, { q with qTrg := rest })

/-- Whether the tick writes a record, which needs a ready sink: for an idle tick never, and for an item tick where the item is there
and the state's action writes it (R300). -/
def tickStores (t : Tick) (q : PipelineState) : Bool :=
  match tickItem t q with
  | none => false
  | some (y, _) => tickWrites q.rcr.st (tickSees y q.rcr)

/-- Whether the memory sink accepts a write in this tick (44_pipeline.md R366). -/
def sinkReady : Tick → Bool
  | .idle => true
  | .item ready => ready

/-- The end of every tick: `fprev <- f; s2 <- s1; s1 <- force_out_peer`, from the values before the tick (R300). -/
def shiftForce (before : RecorderState) (peerForce : Bool) (r : RecorderState) : RecorderState :=
  { r with fprev := before.s2, s2 := before.s1, s1 := peerForce }

/-- TICK (R300) for a row that `sel` selects by `rec.st`; `body` is the state's action. A tick that writes while the sink is not ready is
not enabled (R314). -/
def tickAction (sel : RecSt → Bool) (body : TickInput → PipelineState → PipelineState) (peerForce : Bool) (t : Tick)
    (q : PipelineState) : Option PipelineState :=
  if !sel q.rcr.st then none
  else match tickItem t q with
    | none => none
    | some (y, q1) =>
      let i := tickSees y q.rcr
      if tickWrites q.rcr.st i && !sinkReady t then none
      else
        let q2 := body i q1
        some { q2 with rcr := shiftForce q.rcr peerForce q2.rcr }

/-! ### The states -/

/-- `WRITE(y, 0)` where the tick has an item. -/
def writeItem (par : Params) (p : Pipe) (y : Option TrigOut) (q : PipelineState) : PipelineState :=
  match y with
  | none => q
  | some y => writeRecord par p y false q

/-- `cnt`: the tick has an item and it is a unit (R300, R302). -/
def tickCounts (mode : RecMode) (y : Option TrigOut) : Bool :=
  match y with
  | none => false
  | some y => counted mode y

/-- Move the Recorder. -/
def setRecSt (st : RecSt) (q : PipelineState) : PipelineState := { q with rcr := { q.rcr with st := st } }

/-- FILL_POST_TRIG, or DONE where REC_SIZE units have already been written (R307, R308). -/
def enterPost (q : PipelineState) : PipelineState :=
  setRecSt (if reached q.rcr.postCnt q.bank.recSize then .done else .fillPostTrig) q

/-- IDLE_T (R305): a rise enters FORCED, and otherwise an item is dropped. -/
def idleBody (par : Params) (p : Pipe) (i : TickInput) (q : PipelineState) : PipelineState :=
  if i.rise then writeItem par p i.y { q with rcr := { initCapture par p q.rcr with st := .forced } } else q

/-- The address of the record the tick is about to write becomes `trigAddr` (R307). -/
def markTrigger (q : PipelineState) : PipelineState := { q with rcr := { q.rcr with trigAddr := q.rcr.cursor } }

/-- Set `post_cnt` to 1 where the trigger record counts, else to 0 (R307). -/
def startPost (one : Bool) (q : PipelineState) : PipelineState :=
  { q with rcr := { q.rcr with postCnt := if one then 1 else 0 } }

/-- EXT_TRIGGER(y, cnt): the peer's force, seen as a trigger (R307). -/
def extTrigger (par : Params) (p : Pipe) (i : TickInput) (q : PipelineState) : PipelineState :=
  enterPost (startPost (par.postIncludesTrig && tickCounts q.bank.recMode i.y) (writeItem par p i.y (markTrigger q)))

/-- The own trigger of WAIT_T, on the item `y` (R307). -/
def ownTrigger (par : Params) (p : Pipe) (y : TrigOut) (q : PipelineState) : PipelineState :=
  enterPost (startPost (par.postIncludesTrig && counted q.bank.recMode y) (writeRecord par p y true (markTrigger q)))

/-- PRE_T (R306): an item is written and counted, its `trig` ignored; the window is full once OFFSET units are counted. -/
def preBody (par : Params) (p : Pipe) (i : TickInput) (q : PipelineState) : PipelineState :=
  if i.rise then extTrigger par p i q
  else
    let q1 := writeItem par p i.y q
    let n := if tickCounts q.bank.recMode i.y then q.rcr.preCnt + 1 else q.rcr.preCnt
    { q1 with rcr := { q1.rcr with preCnt := n, st := if reached n q.bank.recOffset then .waitTrigger else q1.rcr.st } }

/-- WAIT_T (R307): an own trigger beats a rise; otherwise an item is retained in the ring. -/
def waitBody (par : Params) (p : Pipe) (i : TickInput) (q : PipelineState) : PipelineState :=
  match i.y with
  | some y =>
    if y.trig then ownTrigger par p y q
    else if i.rise then extTrigger par p i q
    else writeRecord par p y false q
  | none => if i.rise then extTrigger par p i q else q

/-- POST_T (R308): an item is written and counted; DONE once SIZE units are counted. -/
def postBody (par : Params) (p : Pipe) (i : TickInput) (q : PipelineState) : PipelineState :=
  let q1 := writeItem par p i.y q
  let n := if tickCounts q.bank.recMode i.y then q.rcr.postCnt + 1 else q.rcr.postCnt
  enterPost { q1 with rcr := { q1.rcr with postCnt := n } }

/-- DONE and ABORT (R309): an item is discarded. -/
def doneBody (_i : TickInput) (q : PipelineState) : PipelineState := q

/-- FORCED_T (R310): DONE where the force wire is low, and otherwise an item is written. -/
def forcedBody (par : Params) (p : Pipe) (i : TickInput) (q : PipelineState) : PipelineState :=
  if i.f then writeItem par p i.y q else setRecSt .done q

/-! ### The rows -/

/-- A Recorder tick of `p` for the row `sel`, with the peer's force wire as it stands (44_pipeline.md R363). -/
def recorderStep (sel : RecSt → Bool) (body : TickInput → PipelineState → PipelineState) (p : Pipe) (t : Tick) (s : State) :
    Outcome State Fault Refusal :=
  agentStep p (tickAction sel body (forceOut (s.pipe p.peer).rcr) t) s

/-- REC_TICK_IDLE (R305). -/
def execRecTickIdle (p : Pipe) (t : Tick) (s : State) : Outcome State Fault Refusal :=
  recorderStep (fun st => st == .idle) (idleBody s.par p) p t s

/-- REC_TICK_PRE (R306). -/
def execRecTickPre (p : Pipe) (t : Tick) (s : State) : Outcome State Fault Refusal :=
  recorderStep (fun st => st == .fillPreTrig) (preBody s.par p) p t s

/-- REC_TICK_WAIT (R307). -/
def execRecTickWait (p : Pipe) (t : Tick) (s : State) : Outcome State Fault Refusal :=
  recorderStep (fun st => st == .waitTrigger) (waitBody s.par p) p t s

/-- REC_TICK_POST (R308). -/
def execRecTickPost (p : Pipe) (t : Tick) (s : State) : Outcome State Fault Refusal :=
  recorderStep (fun st => st == .fillPostTrig) (postBody s.par p) p t s

/-- REC_TICK_DONE_ABORT (R309). -/
def execRecTickDoneAbort (p : Pipe) (t : Tick) (s : State) : Outcome State Fault Refusal :=
  recorderStep (fun st => st == .done || st == .abort) doneBody p t s

/-- REC_TICK_FORCED (R310). -/
def execRecTickForced (p : Pipe) (t : Tick) (s : State) : Outcome State Fault Refusal :=
  recorderStep (fun st => st == .forced) (forcedBody s.par p) p t s

end Sys2Proof.Machine
end

