-- ==== Sys2Proof/Machine/Symbols.lean ====
section
/-! DEFINITION. The SYM9 rows: the input source of a pipeline delivers one symbol (30_encoding.md R101, R102, R113;
44_pipeline.md R362; log 7). What a symbol then does is what the stages' rules do with its code. -/

namespace Sys2Proof.Machine

open Sys2Proof.Config Host

/-- COM, K28.5 (R102). -/
def execCom (p : Pipe) (s : State) : Outcome State Fault Refusal := deliver p (ctl 0xBC) s

/-- SKP, K28.0 (R102). -/
def execSkp (p : Pipe) (s : State) : Outcome State Fault Refusal := deliver p (ctl 0x1C) s

/-- FTS, K28.1 (R102). -/
def execFts (p : Pipe) (s : State) : Outcome State Fault Refusal := deliver p (ctl 0x3C) s

/-- IDL, K28.3 (R102). -/
def execIdl (p : Pipe) (s : State) : Outcome State Fault Refusal := deliver p (ctl 0x7C) s

/-- STP, K27.7 (R102). -/
def execStp (p : Pipe) (s : State) : Outcome State Fault Refusal := deliver p (ctl 0xFB) s

/-- SDP, K28.2 (R102). -/
def execSdp (p : Pipe) (s : State) : Outcome State Fault Refusal := deliver p (ctl 0x5C) s

/-- END, K29.7 (R102). -/
def execEndSym (p : Pipe) (s : State) : Outcome State Fault Refusal := deliver p (ctl 0xFD) s

/-- D21.5 (R102). -/
def execD215 (p : Pipe) (s : State) : Outcome State Fault Refusal := deliver p (dat 0xB5) s

/-- D10.2 (R102). -/
def execD102 (p : Pipe) (s : State) : Outcome State Fault Refusal := deliver p (dat 0x4A) s

/-- D5.2 (R102). -/
def execD52 (p : Pipe) (s : State) : Outcome State Fault Refusal := deliver p (dat 0x45) s

/-- K_OTHER: any other control byte (R102). -/
def execKOther (p : Pipe) (v : Byte) (s : State) : Outcome State Fault Refusal := deliver p (ctl v) s

/-- D_OTHER: any other data byte (R102). -/
def execDOther (p : Pipe) (v : Byte) (s : State) : Outcome State Fault Refusal := deliver p (dat v) s

end Sys2Proof.Machine
end

