-- ==== Sys2Proof/Machine/Trigger.lean ====
section
/-! DEFINITION. The Trigger Engine (42_trigger.md). -/

namespace Sys2Proof.Machine

open Sys2Proof.Config Host

/-- Entry `E[i]` of the pattern table. A step reads only entries below TRIG_SIZE (R261), which the table has. -/
def patternEntry (tbl : List PatternEntry) (i : Nat) : PatternEntry := tbl.getD i .reset

/-- A track's comparison of entries `n`, `n+1` with both lanes of an item; where the pattern ends at lane 0, lane 1 is not compared
(R262, R263). -/
def matchPair (tbl : List PatternEntry) (size n : Nat) (b0 b1 : SymByte) : Nat :=
  if entryMatches (patternEntry tbl n) b0 && (decide (size ≤ n + 1) || entryMatches (patternEntry tbl (n + 1)) b1) then n + 2 else 0

/-- ALIGNED(n, y): the track that starts at lane 0 (R262). -/
def alignedTrack (tbl : List PatternEntry) (size n : Nat) (b0 b1 : SymByte) : Nat := matchPair tbl size n b0 b1

/-- UNALIGNED(n, y): the track that starts at lane 1 (R263). DEDUCED (log 34): from entry 1 on it compares both E[n] and E[n+1], as R263's
pseudocode and the resolution of 90_conflicts.md C20 have it, where R261 counts only one of them among the entries a step reads. -/
def unalignedTrack (tbl : List PatternEntry) (size n : Nat) (b0 b1 : SymByte) : Nat :=
  if n = 0 then (if entryMatches (patternEntry tbl 0) b1 then 1 else 0) else matchPair tbl size n b0 b1

/-- The engine's step on one item while armed and in T_ACTIVE: its state after the item and whether the trigger fires (R264). -/
def matchItem (tbl : List PatternEntry) (size : Nat) (y : FiltOut) (t : TriggerState) : TriggerState × Bool :=
  let b0 := lane0Of y.data y.ctrl
  let b1 := lane1Of y.data y.ctrl
  let fired : TriggerState × Bool := ({ st := .done, pa := 0, pu := 0 }, true)
  if size ≤ t.pa ∨ size ≤ t.pu then fired
  else
    let qa := alignedTrack tbl size t.pa b0 b1
    let qu := unalignedTrack tbl size t.pu b0 b1
    if size ≤ qa ∨ size ≤ qu then fired else ({ st := .active, pa := qa, pu := qu }, false)

/-- The engine's step on one item (R264): held in T_IDLE while disarmed (R265), timestamp items are skipped (R266), and nothing changes
in T_DONE. -/
def triggerItem (b : Bank) (tbl : List PatternEntry) (y : FiltOut) (t : TriggerState) : TriggerState × Bool :=
  if !b.trigArmed then ({ st := .idle, pa := 0, pu := 0 }, false)
  else
    let t1 : TriggerState := if t.st = .idle then { st := .active, pa := 0, pu := 0 } else t
    if t1.st = .active ∧ y.isTs = false then matchItem tbl b.trigSize.toNat y t1 else (t1, false)

/-- TRIG's action (R264): every item is forwarded. -/
def trigAction (q : PipelineState) : Option PipelineState :=
  match q.qFlt with
  | [] => none
  | y :: rest =>
    let (t, fire) := triggerItem q.bank q.pattern y q.trg
    some { q with qFlt := rest, trg := t, qTrg := q.qTrg ++ [{ item := y, trig := fire }] }

/-- TRIG: one step of the Trigger Engine (R264). -/
def execTrig (p : Pipe) (s : State) : Outcome State Fault Refusal := agentStep p trigAction s

end Sys2Proof.Machine
end

