-- ==== Sys2Proof/Machine/Dispatch.lean ====
section
/-! DEFINITION. The meaning of every instruction of the table: one arm per constructor, each one call of its meaning. -/

namespace Sys2Proof.Machine

open Host

def exec (i : Instr) (s : State) : Host.Outcome State Fault Refusal :=
  match i with
  | .wrFilterEnable p v => Sys2Proof.Machine.execWrFilterEnable p v s
  | .wrFilterConfig p v => Sys2Proof.Machine.execWrFilterConfig p v s
  | .wrTlpDllpTimeout p v => Sys2Proof.Machine.execWrTlpDllpTimeout p v s
  | .wrTrigArmed p v => Sys2Proof.Machine.execWrTrigArmed p v s
  | .wrTrigSize p v => Sys2Proof.Machine.execWrTrigSize p v s
  | .wrRecMode p v => Sys2Proof.Machine.execWrRecMode p v s
  | .wrRecOffset p v => Sys2Proof.Machine.execWrRecOffset p v s
  | .wrRecSize p v => Sys2Proof.Machine.execWrRecSize p v s
  | .rdFilterEnable p => Sys2Proof.Machine.execRdFilterEnable p s
  | .rdFilterConfig p => Sys2Proof.Machine.execRdFilterConfig p s
  | .rdTlpDllpTimeout p => Sys2Proof.Machine.execRdTlpDllpTimeout p s
  | .rdTrigArmed p => Sys2Proof.Machine.execRdTrigArmed p s
  | .rdTrigSize p => Sys2Proof.Machine.execRdTrigSize p s
  | .rdRecMode p => Sys2Proof.Machine.execRdRecMode p s
  | .rdRecOffset p => Sys2Proof.Machine.execRdRecOffset p s
  | .rdRecSize p => Sys2Proof.Machine.execRdRecSize p s
  | .start p v => Sys2Proof.Machine.execStart p v s
  | .stop p v => Sys2Proof.Machine.execStop p v s
  | .wrPattern p k v => Sys2Proof.Machine.execWrPattern p k v s
  | .rdPattern p k => Sys2Proof.Machine.execRdPattern p k s
  | .rdStatusTriggered p => Sys2Proof.Machine.execRdStatusTriggered p s
  | .rdStatusFinished p => Sys2Proof.Machine.execRdStatusFinished p s
  | .rdStatusTrigAddr p => Sys2Proof.Machine.execRdStatusTrigAddr p s
  | .rdStatusState p => Sys2Proof.Machine.execRdStatusState p s
  | .rdGeomBase p => Sys2Proof.Machine.execRdGeomBase p s
  | .rdGeomLength p => Sys2Proof.Machine.execRdGeomLength p s
  | .rdGeomChunk p => Sys2Proof.Machine.execRdGeomChunk p s
  | .rdGeomStep p => Sys2Proof.Machine.execRdGeomStep p s
  | .rdRecStart p => Sys2Proof.Machine.execRdRecStart p s
  | .rdRecStop p => Sys2Proof.Machine.execRdRecStop p s
  | .wrStatusTriggered p v => Sys2Proof.Machine.execWrStatusTriggered p v s
  | .wrStatusFinished p v => Sys2Proof.Machine.execWrStatusFinished p v s
  | .wrStatusTrigAddr p v => Sys2Proof.Machine.execWrStatusTrigAddr p v s
  | .wrStatusState p v => Sys2Proof.Machine.execWrStatusState p v s
  | .wrGeomBase p v => Sys2Proof.Machine.execWrGeomBase p v s
  | .wrGeomLength p v => Sys2Proof.Machine.execWrGeomLength p v s
  | .wrGeomChunk p v => Sys2Proof.Machine.execWrGeomChunk p v s
  | .wrGeomStep p v => Sys2Proof.Machine.execWrGeomStep p v s
  | .com p => Sys2Proof.Machine.execCom p s
  | .skp p => Sys2Proof.Machine.execSkp p s
  | .fts p => Sys2Proof.Machine.execFts p s
  | .idl p => Sys2Proof.Machine.execIdl p s
  | .stp p => Sys2Proof.Machine.execStp p s
  | .sdp p => Sys2Proof.Machine.execSdp p s
  | .endSym p => Sys2Proof.Machine.execEndSym p s
  | .d215 p => Sys2Proof.Machine.execD215 p s
  | .d102 p => Sys2Proof.Machine.execD102 p s
  | .d52 p => Sys2Proof.Machine.execD52 p s
  | .kOther p v => Sys2Proof.Machine.execKOther p v s
  | .dOther p v => Sys2Proof.Machine.execDOther p v s
  | .align p => Sys2Proof.Machine.execAlign p s
  | .label p => Sys2Proof.Machine.execLabel p s
  | .filtWriteFind p => Sys2Proof.Machine.execFiltWriteFind p s
  | .filtWriteOsbody p => Sys2Proof.Machine.execFiltWriteOsbody p s
  | .filtWritePkt p => Sys2Proof.Machine.execFiltWritePkt p s
  | .filtWritePass p => Sys2Proof.Machine.execFiltWritePass p s
  | .filtReadPass p => Sys2Proof.Machine.execFiltReadPass p s
  | .filtReadSelect p => Sys2Proof.Machine.execFiltReadSelect p s
  | .filtReadTsins p => Sys2Proof.Machine.execFiltReadTsins p s
  | .filtReadDrain p => Sys2Proof.Machine.execFiltReadDrain p s
  | .trig p => Sys2Proof.Machine.execTrig p s
  | .recTickIdle p t => Sys2Proof.Machine.execRecTickIdle p t s
  | .recTickPre p t => Sys2Proof.Machine.execRecTickPre p t s
  | .recTickWait p t => Sys2Proof.Machine.execRecTickWait p t s
  | .recTickPost p t => Sys2Proof.Machine.execRecTickPost p t s
  | .recTickDoneAbort p t => Sys2Proof.Machine.execRecTickDoneAbort p t s
  | .recTickForced p t => Sys2Proof.Machine.execRecTickForced p t s
  | .clock => Sys2Proof.Machine.execClock s

end Sys2Proof.Machine
end

