-- ==== Sys2Proof/Machine/Schedule.lean ====
section
/-! DEFINITION. What one scheduled command does: an instruction of the table, a stage agent's step through the row its state selects
(30_encoding.md R114, 44_pipeline.md R360), or a host access to a reserved offset (45_host.md R409). -/

namespace Sys2Proof.Machine

open Sys2Proof.Config Host

/-- The writer's row (41_filter.md R200): FILTER_ENABLE beats `flt.w` (60_exceptions.md R446). -/
def writerRow (p : Pipe) (q : PipelineState) : Instr :=
  if !q.bank.filterEnable then .filtWritePass p
  else match q.flt.w with
    | .noFilter | .find => .filtWriteFind p
    | .os _ _ => .filtWriteOsbody p
    | .pkt _ _ => .filtWritePkt p

/-- The reader's row (R207). -/
def readerRow (p : Pipe) (q : PipelineState) : Instr :=
  match q.flt.r with
  | .noFilter => .filtReadPass p
  | .filter => .filtReadSelect p
  | .tsi _ _ _ => .filtReadTsins p
  | .read _ _ _ => .filtReadDrain p

/-- The Recorder's row (43_recorder.md R300). -/
def recorderRow (p : Pipe) (t : Tick) (q : PipelineState) : Instr :=
  match q.rcr.st with
  | .idle => .recTickIdle p t
  | .fillPreTrig => .recTickPre p t
  | .waitTrigger => .recTickWait p t
  | .fillPostTrig => .recTickPost p t
  | .done | .abort => .recTickDoneAbort p t
  | .forced => .recTickForced p t

/-- The row that the state of agent `a` of pipeline `p` selects (30_encoding.md R114). -/
def selectRow (p : Pipe) (a : Agent) (s : State) : Instr :=
  match a with
  | .aligner => .align p
  | .labeller => .label p
  | .writer => writerRow p (s.pipe p)
  | .reader => readerRow p (s.pipe p)
  | .trigger => .trig p
  | .recorder t => recorderRow p t (s.pipe p)

/-- One command. -/
def runCommand (c : Command) (s : State) : Outcome State Fault Refusal :=
  match c with
  | .instr i => exec i s
  | .agent p a => exec (selectRow p a s) s
  | .reservedWrite _ _ _ => ignoredWrite s
  | .reservedRead _ _ => hostRead 0 s

/-- The refusal of a word that encodes no command: the accesses of 45_host.md R410 by name, anything else as no command (log 2). -/
def refusalOf : DecodeError → Refusal
  | .not32Bit => .accessNot32Bit
  | .unaligned => .accessUnaligned
  | .offsetOutOfBank | .unknownSymbol | .unknownStep | .unknownAgent | .unknownFormat | .strayBits => .badCommand

/-- One scheduled word. -/
def runWord (w : CmdWord) (s : State) : Outcome State Fault Refusal :=
  match decode w with
  | .ok c => runCommand c s
  | .error e => .refused (refusalOf e)

/-- One system step: one step of one agent, the one scheduled next (44_pipeline.md R360). Nothing scheduled, nothing steps (log 1). -/
def systemStep (s : State) : Outcome State Fault Refusal :=
  match fetch s with
  | none => .next s
  | some (w, s1) => runWord w s1

end Sys2Proof.Machine
end

