-- ==== Sys2Proof/Machine/Step.lean ====
section
/-! DEFINITION. The step of the machine, and where it finds its next command. -/

namespace Sys2Proof.Machine

/-- One step: refused for an instance whose parameters break 00_scope.md R8's constraints, otherwise one system step
(44_pipeline.md R360). -/
def step (s : State) : Host.Outcome State Fault Refusal :=
  if s.par.Valid then systemStep s else .refused .badParameters

/-- `s` with a row's number of spec/opcode_table.json scheduled as the next command (log 1, log 3). -/
def State.withFetchWord (s : State) (nbits w : Nat) : State := { s with sched := tableCmd nbits w :: s.sched }

end Sys2Proof.Machine
end

