-- ==== Sys2Proof/Machine/Events.lean ====
section
/-! DEFINITION. The error events of 60_exceptions.md R440, as observations of a step. They are ordinary transitions: none transfers
control, saves state or is stored, so the step does not read this file. -/

namespace Sys2Proof.Machine

open Sys2Proof.Config

/-- The event codes of R440. -/
inductive ErrorEvent where
  | frameTimeout
  | abort
  | mismatch
  | osMalformed
deriving DecidableEq, Repr

/-- EV_FRAME_TIMEOUT: the writer's PKT step admits an item past the timeout (R441, 41_filter.md R205). -/
def timesOut (par : Params) (q : PipelineState) : Bool :=
  match q.qCls, q.flt.w with
  | x :: _, .pkt _ c =>
    q.bank.filterEnable && decide (q.flt.fifo.length < par.fifoDepth) &&
    (startKind (lane0Of x.data x.ctrl)).isNone && (startKind (lane1Of x.data x.ctrl)).isNone &&
    decide (q.bank.timeout.toNat < c + 1)
  | _, _ => false

/-- EV_ABORT: STOP in a capturing state (R442, 45_host.md R401). -/
def aborts (v : Word) (st : RecSt) : Bool := v.getLsbD 0 && stopState st == .abort

/-- EV_MISMATCH: an item that the engine compares fails the current entries on a track, so that the track's result is 0 (R440,
42_trigger.md R262, R263), whether or not the other track completes on it. DESIGN CHOICE (log 35):
an item that fails on both tracks at once is one event, where the spec gives no number. -/
def mismatches (q : PipelineState) : Bool :=
  match q.qFlt with
  | [] => false
  | y :: _ =>
    let size := q.bank.trigSize.toNat
    let (pa, pu) := if q.trg.st = .idle then (0, 0) else (q.trg.pa, q.trg.pu)
    let b0 := lane0Of y.data y.ctrl
    let b1 := lane1Of y.data y.ctrl
    let qa := alignedTrack q.pattern size pa b0 b1
    let qu := unalignedTrack q.pattern size pu b0 b1
    q.bank.trigArmed && q.trg.st != .done && !y.isTs && decide (pa < size) && decide (pu < size) &&
    (qa == 0 || qu == 0)

/-- EV_OS_MALFORMED: a lane-0 COM that opens no recognised set (R440, 40_classifier.md R154). -/
def malformedSet (q : PipelineState) : Bool :=
  match q.cls.labq with
  | [] => false
  | x :: _ => labelEnabled q.cls x && decide (q.cls.rem = 0) && isCom x.lane0 && clsType (window q.cls.labq) == .data

/-- The error events that `exec i s` raises (R440), at most one: an item that fails on both tracks raises one EV_MISMATCH (log 35). -/
def errorEvents (i : Instr) (s : State) : List ErrorEvent :=
  match i with
  | .filtWritePkt p => if timesOut s.par (s.pipe p) then [.frameTimeout] else []
  | .stop p v => if aborts v (s.pipe p).rcr.st then [.abort] else []
  | .trig p => if mismatches (s.pipe p) then [.mismatch] else []
  | .label p => if malformedSet (s.pipe p) then [.osMalformed] else []
  | _ => []

end Sys2Proof.Machine
end

