-- ==== Sys2Proof/Machine/Runs.lean ====
section
/-! DEFINITION. Runs without end: the fairness of 44_pipeline.md R365, and what a host that reads ring memory during a run sees
(20_memory.md R80). A run is two sequences, `cmd n` the command of step `n` and `st n` the state before it; they are arguments of
predicates, not state. -/

namespace Sys2Proof.Machine

open Sys2Proof.Config Host

/-! ### Runs -/

/-- `cmd` takes `st 0` to `st 1`, to `st 2`, …: one system step each, in an order that nothing fixes (R360, 00_scope.md R16). -/
def IsRun (cmd : Nat → Command) (st : Nat → State) : Prop := ∀ n, runCommand (cmd n) (st n) = .next (st (n + 1))

/-! ### Which agents can step -/

/-- READ's enabling condition (41_filter.md R207). -/
def readerEnabled (q : PipelineState) : Bool :=
  match q.flt.r with
  | .tsi _ _ _ => true
  | .noFilter => q.bank.filterEnable || !q.flt.fifo.isEmpty
  | .filter | .read _ _ _ => !q.bank.filterEnable || !q.flt.fifo.isEmpty

/-- Whether agent `a` of pipeline `p` is enabled: the aligner with an input (40_classifier.md R150), the labeller with a head that its
rule decides (R155), the writer with an item and room for it (41_filter.md R200), the reader (R207), the engine with an item
(42_trigger.md R264), the Recorder for an idle tick always, and for an item tick with an item that the sink accepts if the tick
writes it (43_recorder.md R300, R314). -/
def agentEnabled (p : Pipe) (a : Agent) (s : State) : Bool :=
  let q := s.pipe p
  match a with
  | .aligner => !q.qRaw.isEmpty
  | .labeller =>
    match q.cls.labq with
    | [] => false
    | x :: _ => labelEnabled q.cls x
  | .writer => !q.qCls.isEmpty && decide (q.flt.fifo.length < s.par.fifoDepth)
  | .reader => readerEnabled q
  | .trigger => !q.qFlt.isEmpty
  | .recorder t => (tickItem t q).isSome && (!tickStores t q || sinkReady t)

/-- The command `c` schedules agent `a` of pipeline `p` at `s`, by the agent's name or by the row its state selects. -/
def Schedules (c : Command) (s : State) (p : Pipe) (a : Agent) : Prop := c = .agent p a ∨ c = .instr (selectRow p a s)

/-- Step `n` of the run is a step of agent `a` of pipeline `p`. -/
def StepsAt (cmd : Nat → Command) (st : Nat → State) (p : Pipe) (a : Agent) (n : Nat) : Prop :=
  Schedules (cmd n) (st n) p a ∧ agentEnabled p a (st n) = true

/-! ### Fairness (R365) -/

/-- Weak fairness of an agent: one that stays enabled eventually steps (R365). -/
def WeaklyFair (cmd : Nat → Command) (st : Nat → State) (p : Pipe) (a : Agent) : Prop :=
  ∀ n, (∀ m, n ≤ m → agentEnabled p a (st m) = true) → ∃ m, n ≤ m ∧ StepsAt cmd st p a m

/-- The Recorder of `p` ticks infinitely often (R365). -/
def TicksForever (cmd : Nat → Command) (st : Nat → State) (p : Pipe) : Prop :=
  ∀ n, ∃ m t, n ≤ m ∧ StepsAt cmd st p (.recorder t) m

/-- `sink m`: the memory sink of `p` is ready in step `m`. It is ready infinitely often, and the Recorder's item ticks see it as it is
(R365, R366). -/
def SinkAccepts (cmd : Nat → Command) (st : Nat → State) (p : Pipe) (sink : Nat → Bool) : Prop :=
  (∀ n, ∃ m, n ≤ m ∧ sink m = true) ∧ ∀ m r, Schedules (cmd m) (st m) p (.recorder (.item r)) → r = sink m

/-- While items wait in `q_trg` the Recorder eventually takes an item tick. DEDUCED (log 18): R365 counts idle ticks among the ticks taken
infinitely often, and a run of idle ticks alone would process no item, against its conclusion. -/
def TakesItems (cmd : Nat → Command) (st : Nat → State) (p : Pipe) : Prop :=
  ∀ n, (∀ m, n ≤ m → ((st m).pipe p).qTrg ≠ []) → ∃ m r, n ≤ m ∧ StepsAt cmd st p (.recorder (.item r)) m

/-- R365's fairness of a run, for both pipelines. The clock, the host and the input are under no constraint. -/
def FairRun (cmd : Nat → Command) (st : Nat → State) (sink : Pipe → Nat → Bool) : Prop :=
  ∀ p, (∀ a ∈ [Agent.aligner, .labeller, .writer, .reader, .trigger], WeaklyFair cmd st p a) ∧ TicksForever cmd st p ∧
    SinkAccepts cmd st p (sink p) ∧ TakesItems cmd st p

/-- Step `m` of the run is a START of pipeline `p`, which empties the queues behind the aligner (45_host.md R400). -/
def StartsAt (cmd : Nat → Command) (p : Pipe) (m : Nat) : Prop := ∃ v : Word, cmd m = .instr (.start p v) ∧ v.getLsbD 0 = true

/-- Step `m` of the run takes the head off a queue of pipeline `p`. -/
def TakesHeadAt {α : Type} (queue : PipelineState → List α) (st : Nat → State) (p : Pipe) (m : Nat) : Prop :=
  ∃ x, queue ((st m).pipe p) = x :: queue ((st (m + 1)).pipe p)

/-- R365's eventual processing, for the item at the head of a queue at step `n`: it is eventually taken, or a START empties the queue
first. -/
def HeadProcessed {α : Type} (queue : PipelineState → List α) (cmd : Nat → Command) (st : Nat → State) (p : Pipe) (n : Nat) : Prop :=
  ∃ m, n ≤ m ∧ (TakesHeadAt queue st p m ∨ StartsAt cmd p m)

/-! ### Host reads of ring memory during a run (20_memory.md R75, R78 to R80) -/

/-- Step `f` of the run is the host's observation of STATUS_FINISHED = 1 for pipeline `p` (R80). DESIGN CHOICE (log 33): a read of
STATUS_STATE that returns DONE or ABORT is no such observation. R81 names it as synchronisation too, but R80 gives its guarantee for
STATUS_FINISHED alone. The two differ in a later capture only. -/
def ObservesFinishedAt (cmd : Nat → Command) (st : Nat → State) (p : Pipe) (f : Nat) : Prop :=
  cmd f = .instr (.rdStatusFinished p) ∧ finished ((st f).pipe p).rcr = true

/-- How a host that reads ring `p` just before the steps `n` with `reads n` may see it: as it stood before step `view n`, and so with a
prefix of the writes issued so far, since a step performs at most one and they are performed in issue order (R78). The read gives
`hostRingRead p ((st (view n)).pipe p).ring`.
* While `p` is not capturing, every accepted write is there (R75).
* While it captures, any prefix will do (R80, 93_implementation_defined.md section 3), but none that lacks a write made before an
observation of FINISHED (R80), and none shorter than an earlier read found (R79; log 32). -/
def RingView (cmd : Nat → Command) (st : Nat → State) (p : Pipe) (reads : Nat → Prop) (view : Nat → Nat) : Prop :=
  (∀ n, view n ≤ n) ∧ (∀ n, isCapturing ((st n).pipe p).rcr = false → view n = n) ∧
  (∀ f n, f < n → ObservesFinishedAt cmd st p f → f ≤ view n) ∧ ∀ m n, m ≤ n → reads m → reads n → view m ≤ view n

end Sys2Proof.Machine
end

