-- ==== Sys2Proof/Safety.lean ====
section
/-! DEFINITION. What a good state is (the invariant every step keeps), what a step may touch, and runs of steps: the terms the
obligations use. -/

namespace Sys2Proof.Machine

open Sys2Proof.Config Host

/-! ### The invariant -/

/-- An address of pipeline `p`'s ring at which a record can stand (10_state.md R44, 20_memory.md R74, R77). -/
abbrev InRing (par : Params) (p : Pipe) (a : Nat) : Prop :=
  par.base p ≤ a ∧ a < par.limit p ∧ (a - par.base p) % par.addrStep = 0

/-- The classifier: a byte is held exactly in phase 1 (R34), the open set's rest is shorter than the set (R35), and
MODIFIED_COMPLIANCE is never the open set (40_classifier.md R154). -/
abbrev ClassifierState.Good (c : ClassifierState) : Prop :=
  c.pend.isSome = c.phase ∧ (c.rem ≠ 0 → c.rem.val < osLen c.cur) ∧ c.cur ≠ .modifiedCompliance

/-- A classified transfer: `is_os = (os ≠ DATA)` (30_encoding.md R104), and MODIFIED_COMPLIANCE is never produced (R103). -/
abbrev ClassifiedTransfer.Good (x : ClassifiedTransfer) : Prop := x.isOs = (x.os != .data) ∧ x.os ≠ .modifiedCompliance

/-- A FIFO item (R106): one of kind NONE has no frame flag, only a frame's first item has a timestamp, and an item flagged `err` is
its frame's last (41_filter.md R205). -/
abbrev FifoItem.Good (x : FifoItem) : Prop :=
  (x.kind = .none → x.sof = false ∧ x.eof = false) ∧ (x.sof = false → x.ts = 0) ∧ (x.err = true → x.eof = true)

/-- The writer's state: in W_OS, 1 ≤ rem ≤ 7 and an ordered-set kind (10_state.md R37). -/
abbrev WState.Good (w : WState) : Prop :=
  (match w with
    | .os rem k => decide (rem ≠ 0) && decide (k ∈ [FrameKind.skip, .fts, .ts1, .ts2])
    | .noFilter | .find | .pkt _ _ => true) = true

/-- The reader's state: it stamps and drains frames, so never an item of kind NONE (R39, 41_filter.md R209). -/
abbrev RState.Good (r : RState) : Prop :=
  (match r with
    | .tsi _ _ k | .read k _ _ => decide (k ≠ .none)
    | .noFilter | .filter => true) = true

/-- A Filter output item: a timestamp item has `ctrl = 0b00` and no flag, and `err` comes with `eof` (30_encoding.md R107). -/
abbrev FiltOut.Good (y : FiltOut) : Prop :=
  (y.isTs = true → y.ctrl = 0 ∧ y.sof = false ∧ y.eof = false ∧ y.err = false) ∧ (y.err = true → y.eof = true)

/-- The Trigger Engine: both pointers within the table, the aligned one even, the unaligned one 0 or odd, and both 0 unless a match is
running (10_state.md R41, R42, 42_trigger.md R262 to R264). -/
abbrev TriggerState.Good (par : Params) (t : TriggerState) : Prop :=
  t.pa ≤ par.memSize ∧ t.pu ≤ par.memSize ∧ t.pa % 2 = 0 ∧ (t.pu = 0 ∨ t.pu % 2 = 1) ∧
  (t.st ≠ .active → t.pa = 0 ∧ t.pu = 0)

/-- The ring: canonical, every record at one of the ring's record addresses, and record bits [31:27] zero (20_memory.md R77,
30_encoding.md R109). -/
abbrev Memory.Good (par : Params) (p : Pipe) (r : Memory) : Prop :=
  Memory.wf r = true ∧ ∀ e ∈ r, InRing par p e.1 ∧ e.2.toNat < 2 ^ 27

/-- A pipeline in a good state. -/
abbrev PipelineState.Good (par : Params) (p : Pipe) (q : PipelineState) : Prop :=
  q.cls.Good ∧ (∀ x ∈ q.qCls, x.Good) ∧
  q.flt.w.Good ∧ q.flt.r.Good ∧ (∀ x ∈ q.flt.fifo, x.Good) ∧ q.flt.fifo.length ≤ par.fifoDepth ∧
  (∀ y ∈ q.qFlt, y.Good) ∧ q.trg.Good par ∧ (∀ y ∈ q.qTrg, y.item.Good ∧ (y.trig = true → y.item.isTs = false)) ∧
  InRing par p q.rcr.cursor.toNat ∧ InRing par p q.rcr.trigAddr.toNat ∧ Memory.Good par p q.ring ∧
  q.bank.trigSize.toNat ≤ par.memSize ∧ q.pattern.length = par.memSize

/-- The invariant of the machine. -/
abbrev State.Inv (s : State) : Prop := s.par.Valid ∧ s.rx.Good s.par .rx ∧ s.tx.Good s.par .tx

/-! ### What an instruction is about -/

/-- The pipeline an instruction acts on; none for CLOCK, which acts on the shared clock (10_state.md R49). -/
def instrPipe : Instr → Option Pipe
  | .wrFilterEnable p _ | .wrFilterConfig p _ | .wrTlpDllpTimeout p _ | .wrTrigArmed p _ | .wrTrigSize p _ | .wrRecMode p _
  | .wrRecOffset p _ | .wrRecSize p _ | .rdFilterEnable p | .rdFilterConfig p | .rdTlpDllpTimeout p | .rdTrigArmed p
  | .rdTrigSize p | .rdRecMode p | .rdRecOffset p | .rdRecSize p | .start p _ | .stop p _ | .wrPattern p _ _ | .rdPattern p _
  | .rdStatusTriggered p | .rdStatusFinished p | .rdStatusTrigAddr p | .rdStatusState p | .rdGeomBase p | .rdGeomLength p
  | .rdGeomChunk p | .rdGeomStep p | .rdRecStart p | .rdRecStop p | .wrStatusTriggered p _ | .wrStatusFinished p _
  | .wrStatusTrigAddr p _ | .wrStatusState p _ | .wrGeomBase p _ | .wrGeomLength p _ | .wrGeomChunk p _ | .wrGeomStep p _
  | .com p | .skp p | .fts p | .idl p | .stp p | .sdp p | .endSym p | .d215 p | .d102 p | .d52 p | .kOther p _ | .dOther p _
  | .align p | .label p | .filtWriteFind p | .filtWriteOsbody p | .filtWritePkt p | .filtWritePass p | .filtReadPass p
  | .filtReadSelect p | .filtReadTsins p | .filtReadDrain p | .trig p | .recTickIdle p _ | .recTickPre p _ | .recTickWait p _
  | .recTickPost p _ | .recTickDoneAbort p _ | .recTickForced p _ => some p
  | .clock => none

/-- The kinds of step that R360 tells apart by what they may write: the host's operations, and one for each agent. -/
inductive StepKind where
  | configWrite
  | hostRead
  | start
  | stop
  | ignored
  | symbol
  | aligner
  | labeller
  | writer
  | reader
  | trigger
  | recorder
  | clock
deriving DecidableEq, Repr

/-- The kind of an instruction. -/
def stepKind : Instr → StepKind
  | .wrFilterEnable .. | .wrFilterConfig .. | .wrTlpDllpTimeout .. | .wrTrigArmed .. | .wrTrigSize .. | .wrRecMode ..
  | .wrRecOffset .. | .wrRecSize .. | .wrPattern .. => .configWrite
  | .rdFilterEnable .. | .rdFilterConfig .. | .rdTlpDllpTimeout .. | .rdTrigArmed .. | .rdTrigSize .. | .rdRecMode ..
  | .rdRecOffset .. | .rdRecSize .. | .rdPattern .. | .rdStatusTriggered .. | .rdStatusFinished .. | .rdStatusTrigAddr ..
  | .rdStatusState .. | .rdGeomBase .. | .rdGeomLength .. | .rdGeomChunk .. | .rdGeomStep .. | .rdRecStart ..
  | .rdRecStop .. => .hostRead
  | .start .. => .start
  | .stop .. => .stop
  | .wrStatusTriggered .. | .wrStatusFinished .. | .wrStatusTrigAddr .. | .wrStatusState .. | .wrGeomBase .. | .wrGeomLength ..
  | .wrGeomChunk .. | .wrGeomStep .. => .ignored
  | .com .. | .skp .. | .fts .. | .idl .. | .stp .. | .sdp .. | .endSym .. | .d215 .. | .d102 .. | .d52 .. | .kOther ..
  | .dOther .. => .symbol
  | .align .. => .aligner
  | .label .. => .labeller
  | .filtWriteFind .. | .filtWriteOsbody .. | .filtWritePkt .. | .filtWritePass .. => .writer
  | .filtReadPass .. | .filtReadSelect .. | .filtReadTsins .. | .filtReadDrain .. => .reader
  | .trig .. => .trigger
  | .recTickIdle .. | .recTickPre .. | .recTickWait .. | .recTickPost .. | .recTickDoneAbort .. | .recTickForced .. => .recorder
  | .clock => .clock

/-- The address a Recorder row stores at, none where the tick stores nothing: where `rec.st` selects another row, where the tick's action
writes no record, and where the sink does not accept it (43_recorder.md R300, R314). -/
def tickStoreAddress (sel : RecSt → Bool) (p : Pipe) (t : Tick) (q : PipelineState) (cursor : Word) : Option (Pipe × Nat) :=
  if sel q.rcr.st && tickStores t q && sinkReady t then some (p, cursor.toNat) else none

/-- Where an instruction stores a record: the pipeline and the address, by the expression its meaning writes at. A tick that enters
FORCED writes at BASE_P, to which it has just set the cursor (43_recorder.md R305), and every other writing tick at the cursor (R303). -/
def storeAddress (i : Instr) (s : State) : Option (Pipe × Nat) :=
  match i with
  | .recTickIdle p t => tickStoreAddress (· == .idle) p t (s.pipe p) (initCapture s.par p (s.pipe p).rcr).cursor
  | .recTickPre p t => tickStoreAddress (· == .fillPreTrig) p t (s.pipe p) (s.pipe p).rcr.cursor
  | .recTickWait p t => tickStoreAddress (· == .waitTrigger) p t (s.pipe p) (s.pipe p).rcr.cursor
  | .recTickPost p t => tickStoreAddress (· == .fillPostTrig) p t (s.pipe p) (s.pipe p).rcr.cursor
  | .recTickForced p t => tickStoreAddress (· == .forced) p t (s.pipe p) (s.pipe p).rcr.cursor
  | _ => none

/-! ### Bounded runs -/

/-- Run `f` where the outcome is a next state, and keep a stop. -/
def andThen (o : Outcome State Fault Refusal) (f : State → Outcome State Fault Refusal) : Outcome State Fault Refusal :=
  match o with
  | .next s => f s
  | .fault r => .fault r
  | .refused r => .refused r

/-- `n` steps of agent `a` of pipeline `p`, each through the row its state selects (30_encoding.md R114). -/
def runAgent (p : Pipe) (a : Agent) : Nat → State → Outcome State Fault Refusal
  | 0, s => .next s
  | n + 1, s => andThen (exec (selectRow p a s) s) (runAgent p a n)

/-- The byte of a symbol row (R102). -/
def symbolByte : Instr → Option SymByte
  | .com _ => some (ctl 0xBC)
  | .skp _ => some (ctl 0x1C)
  | .fts _ => some (ctl 0x3C)
  | .idl _ => some (ctl 0x7C)
  | .stp _ => some (ctl 0xFB)
  | .sdp _ => some (ctl 0x5C)
  | .endSym _ => some (ctl 0xFD)
  | .d215 _ => some (dat 0xB5)
  | .d102 _ => some (dat 0x4A)
  | .d52 _ => some (dat 0x45)
  | .kOther _ v => some (ctl v)
  | .dOther _ v => some (dat v)
  | _ => none

end Sys2Proof.Machine
end

