-- ==== Sys2Proof/Certificates/Slice0/Obligations.lean ====
section
/-! DEFINITION. The statements about the capture core for the provers. A statement whose conclusion is an equation
`exec i s = .next (s.setPipe p …)` is also the frame of `i`: `setPipe` replaces pipeline `p`'s state alone, and the record it
puts there names every field that changes. -/

open Sys2Proof Sys2Proof.Machine Sys2Proof.Config

/-! ### Commands, decoding and the step -/

/-- When the next scheduled word decodes to a well-formed instruction, the step is that instruction's meaning, at the state with the word
taken from the schedule and nothing else changed. The schedule is the model's own (log 1). -/
def Obligations.StepRunsTheDecodedInstruction : Prop :=
  ∀ (s : State) (w : CmdWord) (rest : List CmdWord) (i : Instr),
    s.par.Valid → s.sched = w :: rest → decode w = .ok (.instr i) → i.wellFormed = true →
    step s = exec i { s with sched := rest }

/-- A stage agent's step is the row that its stage's state selects (R114). Which row that is, is the MODEL'S reading: the spec's pseudocode
chooses among actions, and the model puts the writer's choice by FILTER_ENABLE and `flt.w` (R200) on the four writer rows (log 9), the
reader's choice by `flt.r` (R207) on the four reader rows, with the switch on FILTER_ENABLE, which has no row of its own, carried by each
of them (log 8), and the Recorder's by `rec.st` (R300) on the six tick rows. The agent words are the model's own too (log 2). -/
def Obligations.AgentStepRunsTheRowItsStateSelects : Prop :=
  ∀ (s : State) (w : CmdWord) (rest : List CmdWord) (p : Pipe) (a : Agent),
    s.par.Valid → s.sched = w :: rest → decode w = .ok (.agent p a) →
    (a = .aligner → step s = exec (.align p) { s with sched := rest }) ∧
    (a = .labeller → step s = exec (.label p) { s with sched := rest }) ∧
    (a = .trigger → step s = exec (.trig p) { s with sched := rest }) ∧
    (a = .writer → (s.pipe p).bank.filterEnable = false → step s = exec (.filtWritePass p) { s with sched := rest }) ∧
    (a = .writer → (s.pipe p).bank.filterEnable = true →
      ((s.pipe p).flt.w = .noFilter ∨ (s.pipe p).flt.w = .find → step s = exec (.filtWriteFind p) { s with sched := rest }) ∧
      (∀ rem k, (s.pipe p).flt.w = .os rem k → step s = exec (.filtWriteOsbody p) { s with sched := rest }) ∧
      (∀ k c, (s.pipe p).flt.w = .pkt k c → step s = exec (.filtWritePkt p) { s with sched := rest })) ∧
    (a = .reader →
      ((s.pipe p).flt.r = .noFilter → step s = exec (.filtReadPass p) { s with sched := rest }) ∧
      ((s.pipe p).flt.r = .filter → step s = exec (.filtReadSelect p) { s with sched := rest }) ∧
      (∀ h ts k, (s.pipe p).flt.r = .tsi h ts k → step s = exec (.filtReadTsins p) { s with sched := rest }) ∧
      (∀ k en st, (s.pipe p).flt.r = .read k en st → step s = exec (.filtReadDrain p) { s with sched := rest })) ∧
    (∀ t, a = .recorder t →
      ((s.pipe p).rcr.st = .idle → step s = exec (.recTickIdle p t) { s with sched := rest }) ∧
      ((s.pipe p).rcr.st = .fillPreTrig → step s = exec (.recTickPre p t) { s with sched := rest }) ∧
      ((s.pipe p).rcr.st = .waitTrigger → step s = exec (.recTickWait p t) { s with sched := rest }) ∧
      ((s.pipe p).rcr.st = .fillPostTrig → step s = exec (.recTickPost p t) { s with sched := rest }) ∧
      ((s.pipe p).rcr.st = .done ∨ (s.pipe p).rcr.st = .abort → step s = exec (.recTickDoneAbort p t) { s with sched := rest }) ∧
      ((s.pipe p).rcr.st = .forced → step s = exec (.recTickForced p t) { s with sched := rest }))

/-- The refused host accesses (R410): not 32 bits wide, not at a multiple of 4, TRIG_SIZE above MEM_SIZE; and an instance whose parameters break
R8's constraints is refused at every step. The spec refuses such an instance; that the refusal comes at each step is the MODEL'S, which has
no instantiation to refuse (log 6). How a word says its width is the model's own (log 2). -/
def Obligations.BadHostAccessesAreRefused : Prop :=
  (∀ (s : State) (f : CmdFields) (rest : List CmdWord),
    s.par.Valid → s.sched = f.toWord :: rest → (f.fmt = 0 ∨ f.fmt = 1 ∧ f.value = 0) →
    (f.width ≠ 0 → step s = .refused .accessNot32Bit) ∧
    (f.width = 0 → f.code.toNat % 4 ≠ 0 → step s = .refused .accessUnaligned)) ∧
  (∀ (s : State) (p : Pipe) (v : Word), s.par.memSize < v.toNat → exec (.wrTrigSize p v) s = .refused .trigSizeAboveMemSize) ∧
  (∀ (s : State), ¬ s.par.Valid → step s = .refused .badParameters)

/-- Decoding the word of a well-formed command gives the command back, with every operand at every value. The words are the model's own
(log 2); the row numbers in them are the table's. -/
def Obligations.DecodeInvertsEncode : Prop :=
  (∀ (i : Instr), i.wellFormed = true → decode (encode i) = .ok (.instr i)) ∧
  (∀ (c : Command), c.wellFormed = true → decode (encodeCommand c) = .ok c)

/-- Every command word has at most one meaning and no stray bit: a word that decodes to a command is that command's encoding, and the
command is well-formed. The 56-bit words, their formats and their stray bits are wholly the MODEL'S CHOICE (log 2): the spec gives a step
no word. From the spec are the numbers they carry, and that the most specific symbol row wins (R113), which well-formedness says. -/
def Obligations.DecodedWordIsTheCommandsEncoding : Prop :=
  ∀ (w : CmdWord) (c : Command), decode w = .ok c → encodeCommand c = w ∧ c.wellFormed = true

/-- Words written out bit by bit from the table's row numbers, with the model's fields around them (log 2), decode to their rows. -/
def Obligations.WrittenOutWordsDecode : Prop :=
  decode 0b00000000000000000000000000000000000000110000000000000000#56 = .ok (.instr (.wrFilterEnable .rx 3)) ∧
  decode 0b00001100000000000000000000000000000000000000000000110100#56 = .ok (.instr (.rdStatusState .tx)) ∧
  decode 0b00000000000000000000000000000010101111000000010000000100#56 = .ok (.instr (.wrPattern .rx 1 0x2BC)) ∧
  decode 0b00000100000000000000000000000000000000010000000000100000#56 = .ok (.instr (.start .tx 1)) ∧
  decode 0b00010000000000000000000000000000000000000000000110111100#56 = .ok (.instr (.com .rx)) ∧
  decode 0b00010100000000000000000000000000000000000000000101000010#56 = .ok (.instr (.kOther .tx 0x42)) ∧
  decode 0b00011000000000000000000000000000000000000000000000000001#56 = .ok (.instr (.label .rx)) ∧
  decode 0b00011100000000000000000000000000000000110000000000001101#56 = .ok (.instr (.recTickWait .tx (.item true))) ∧
  decode 0b00011000000000000000000000000000000000000000000000010001#56 = .ok (.instr .clock)

/-! ### Reset and the invariant -/

/-- Hardware reset (R470), for every instance: every state element of the table, in both pipelines, and what the status registers then
read. The free ring content is the model's `none` at every address. -/
def Obligations.ResetPutsEveryElementInItsTableValue : Prop :=
  ∀ (par : Params) (p : Pipe),
    let s := State.resetWith par
    let q := s.pipe p
    s.par = par ∧ s.clock = 0 ∧
    (q.qRaw = [] ∧ q.cls.labq = [] ∧ q.qCls = [] ∧ q.flt.fifo = [] ∧ q.qFlt = [] ∧ q.qTrg = []) ∧
    (q.cls.phase = false ∧ q.cls.pend = none ∧ q.cls.rem = 0 ∧ q.cls.cur = .data ∧ q.cls.lfsr = 0xFFFF) ∧
    (q.flt.w = .noFilter ∧ q.flt.r = .noFilter ∧ q.flt.lastTs = 0 ∧ q.flt.tsValid = false) ∧
    (q.trg.st = .idle ∧ q.trg.pa = 0 ∧ q.trg.pu = 0) ∧
    (q.rcr.st = .idle ∧ q.rcr.cursor = BitVec.ofNat 32 (par.base p) ∧ q.rcr.trigAddr = BitVec.ofNat 32 (par.base p) ∧
      q.rcr.first = true ∧ q.rcr.preCnt = 0 ∧ q.rcr.postCnt = 0 ∧ q.rcr.s1 = false ∧ q.rcr.s2 = false ∧ q.rcr.fprev = false) ∧
    (q.bank.filterEnable = false ∧ q.bank.filterConfig = 0 ∧ q.bank.timeout = 0 ∧ q.bank.trigArmed = false ∧
      q.bank.trigSize = 0 ∧ q.bank.recMode = .raw ∧ q.bank.recOffset = 0 ∧ q.bank.recSize = 0) ∧
    (∀ i, i < par.memSize → q.pattern[i]? = some ⟨0, false, false, false⟩) ∧
    (∀ a, ringRead q.ring a = none) ∧
    exec (.rdStatusTriggered p) s = .next { s with hostRd := 0 } ∧
    exec (.rdStatusFinished p) s = .next { s with hostRd := 0 } ∧
    exec (.rdStatusTrigAddr p) s = .next { s with hostRd := BitVec.ofNat 32 (par.base p) } ∧
    exec (.rdStatusState p) s = .next { s with hostRd := 0 }

/-- The invariant holds at reset, for every instance that meets R8's constraints, `State.reset` among them. -/
def Obligations.ResetMeetsTheInvariant : Prop :=
  (∀ (par : Params), par.Valid → (State.resetWith par).Inv) ∧ State.reset.Inv

/-- Every step keeps the invariant, from every state that meets it: the cursor and the trigger address stay in the ring and aligned (R44,
R74, R77), the ring memory stays canonical and inside the ring, the FIFO within FIFO_DEPTH (R38), the aligner holds a byte exactly in
phase 1 (R34), items keep their formats (R104, R106, R107), the match pointers their ranges (R42). -/
def Obligations.EveryStepKeepsTheInvariant : Prop :=
  ∀ (s t : State), s.Inv → step s = .next t → t.Inv

/-- No instruction stops the machine but WR_TRIG_SIZE above MEM_SIZE: "No condition in this core is fatal" (60_exceptions.md). For a row
whose agent is stalled, or that the stage's state does not select, the next state is the state itself, by the MODEL'S CHOICE of log 4: the
spec has such an agent not step. Where each row has its effect, the statements of the families say. -/
def Obligations.OnlyAnOversizedPatternIsRefused : Prop :=
  ∀ (i : Instr) (s : State),
    (∃ t, exec i s = .next t) ∨
    (∃ p v, i = .wrTrigSize p v ∧ s.par.memSize < v.toNat ∧ exec i s = .refused .trigSizeAboveMemSize)

/-! ### Host operations -/

/-- The configuration writes store their field and change nothing else (R391 to R394, R396 to R398); in particular each completes in every
state with every value. -/
def Obligations.ConfigurationWritesStoreTheirField : Prop :=
  ∀ (p : Pipe) (v : Word) (s : State) (q : PipelineState), s.pipe p = q →
    exec (.wrFilterEnable p v) s = .next (s.setPipe p { q with bank := { q.bank with filterEnable := v.getLsbD 0 } }) ∧
    exec (.wrFilterConfig p v) s = .next (s.setPipe p { q with bank := { q.bank with filterConfig := v.setWidth 6 } }) ∧
    exec (.wrTlpDllpTimeout p v) s = .next (s.setPipe p { q with bank := { q.bank with timeout := v } }) ∧
    exec (.wrTrigArmed p v) s = .next (s.setPipe p { q with bank := { q.bank with trigArmed := v.getLsbD 0 } }) ∧
    exec (.wrRecMode p v) s =
      .next (s.setPipe p { q with bank := { q.bank with recMode := if v.getLsbD 0 then .frame else .raw } }) ∧
    exec (.wrRecOffset p v) s = .next (s.setPipe p { q with bank := { q.bank with recOffset := v } }) ∧
    exec (.wrRecSize p v) s = .next (s.setPipe p { q with bank := { q.bank with recSize := v } })

/-- WR_TRIG_SIZE stores a value up to MEM_SIZE whole, so that it reads back unchanged, and is refused above MEM_SIZE, compared on the full
32-bit value (R395). -/
def Obligations.TrigSizeWriteStoresUpToMemSizeElseIsRefused : Prop :=
  ∀ (p : Pipe) (v : Word) (s : State) (q : PipelineState), s.pipe p = q → s.par.Valid →
    (s.par.memSize < v.toNat → exec (.wrTrigSize p v) s = .refused .trigSizeAboveMemSize) ∧
    (v.toNat ≤ s.par.memSize →
      exec (.wrTrigSize p v) s = .next (s.setPipe p { q with bank := { q.bank with trigSize := v.setWidth 9 } }) ∧
      andThen (exec (.wrTrigSize p v) s) (exec (.rdTrigSize p)) =
        .next { (s.setPipe p { q with bank := { q.bank with trigSize := v.setWidth 9 } }) with hostRd := v })

/-- A read of a configuration register returns the stored field bits, with the reserved bits 0, and writes nothing; after
FILTER_ENABLE <- 3 the read returns 1 (R399). -/
def Obligations.ConfigurationReadsReturnTheStoredField : Prop :=
  ∀ (p : Pipe) (s : State) (q : PipelineState), s.pipe p = q →
    exec (.rdFilterEnable p) s = .next { s with hostRd := if q.bank.filterEnable then 1 else 0 } ∧
    exec (.rdFilterConfig p) s = .next { s with hostRd := BitVec.ofNat 32 q.bank.filterConfig.toNat } ∧
    exec (.rdTlpDllpTimeout p) s = .next { s with hostRd := q.bank.timeout } ∧
    exec (.rdTrigArmed p) s = .next { s with hostRd := if q.bank.trigArmed then 1 else 0 } ∧
    exec (.rdTrigSize p) s = .next { s with hostRd := BitVec.ofNat 32 q.bank.trigSize.toNat } ∧
    exec (.rdRecMode p) s = .next { s with hostRd := if q.bank.recMode = .frame then 1 else 0 } ∧
    exec (.rdRecOffset p) s = .next { s with hostRd := q.bank.recOffset } ∧
    exec (.rdRecSize p) s = .next { s with hostRd := q.bank.recSize } ∧
    andThen (exec (.wrFilterEnable p 3) s) (exec (.rdFilterEnable p)) =
      .next { (s.setPipe p { q with bank := { q.bank with filterEnable := true } }) with hostRd := 1 }

/-- START with `v[0] = 1` puts the classifier, filter, trigger and recorder of its own pipeline in the values of R400's pseudocode, in
every state, and keeps `q_raw`, the synchroniser, the bank, the pattern table and the ring; with `v[0] = 0` it does nothing. -/
def Obligations.StartRestartsItsPipeline : Prop :=
  ∀ (p : Pipe) (v : Word) (s : State) (q : PipelineState), s.pipe p = q →
    (v.getLsbD 0 = true →
      exec (.start p v) s = .next (s.setPipe p { q with
        cls := { phase := false, pend := none, labq := [], rem := 0, cur := .data, lfsr := 0xFFFF }
        qCls := []
        flt := { w := .noFilter, fifo := [], r := .noFilter, lastTs := 0, tsValid := false }
        qFlt := []
        trg := { st := .idle, pa := 0, pu := 0 }
        qTrg := []
        rcr := { q.rcr with
          st := if q.bank.recOffset = 0 then .waitTrigger else .fillPreTrig
          cursor := BitVec.ofNat 32 (s.par.base p)
          first := true
          trigAddr := BitVec.ofNat 32 (s.par.base p)
          preCnt := 0
          postCnt := 0 } })) ∧
    (v.getLsbD 0 = false → exec (.start p v) s = .next s)

/-- STOP with `v[0] = 1` moves the Recorder's state alone: a capturing state to ABORT, DONE and ABORT to IDLE, IDLE unchanged; with
`v[0] = 0` it does nothing (R401). -/
def Obligations.StopMovesTheRecorderAlone : Prop :=
  ∀ (p : Pipe) (v : Word) (s : State) (q : PipelineState), s.pipe p = q →
    (v.getLsbD 0 = true →
      (q.rcr.st ∈ [RecSt.fillPreTrig, .waitTrigger, .fillPostTrig, .forced] →
        exec (.stop p v) s = .next (s.setPipe p { q with rcr := { q.rcr with st := .abort } })) ∧
      (q.rcr.st ∈ [RecSt.done, .abort] →
        exec (.stop p v) s = .next (s.setPipe p { q with rcr := { q.rcr with st := .idle } })) ∧
      (q.rcr.st = .idle → exec (.stop p v) s = .next s)) ∧
    (v.getLsbD 0 = false → exec (.stop p v) s = .next s)

/-- The pattern table: WR PATTERN[i] below MEM_SIZE writes entry i alone, from the value's fields (R111, R402); RD PATTERN[i] returns the
entry's fields in the register format and writes nothing (R403), so that a written value reads back as its bits [10:0]; at or above MEM_SIZE
a write is ignored and a read returns 0. -/
def Obligations.PatternEntriesAreWrittenAndReadBack : Prop :=
  ∀ (p : Pipe) (i : Byte) (v : Word) (s : State) (q : PipelineState), s.pipe p = q →
    (i.toNat < s.par.memSize →
      exec (.wrPattern p i v) s = .next (s.setPipe p { q with
        pattern := q.pattern.set i.toNat ⟨v.setWidth 8, v.getLsbD 8, v.getLsbD 9, v.getLsbD 10⟩ })) ∧
    (∀ e, i.toNat < s.par.memSize → q.pattern[i.toNat]? = some e →
      ∃ r : Word, exec (.rdPattern p i) s = .next { s with hostRd := r } ∧
        r.toNat = e.dataByte.toNat + 256 * e.dataDontcare.toNat + 512 * e.ctrlBit.toNat + 1024 * e.ctrlDontcare.toNat) ∧
    (i.toNat < s.par.memSize → i.toNat < q.pattern.length →
      ∃ t, andThen (exec (.wrPattern p i v) s) (exec (.rdPattern p i)) = .next t ∧ t.hostRd = v &&& 0x7FF) ∧
    (s.par.memSize ≤ i.toNat →
      exec (.wrPattern p i v) s = .next s ∧ exec (.rdPattern p i) s = .next { s with hostRd := 0 })

/-- The status reads (R404 to R407): TRIGGERED, FINISHED, TRIG_ADDR and the STATE code of R110; the geometry reads (R408): BASE_P, LENGTH_P,
RECORD_BITS = 32 and ADDR_STEP, none of which loses a bit of a valid instance's value. None writes any state. -/
def Obligations.StatusAndGeometryReadsReport : Prop :=
  ∀ (p : Pipe) (s : State) (q : PipelineState), s.pipe p = q → s.par.Valid →
    exec (.rdStatusTriggered p) s = .next { s with hostRd := if q.trg.st = .done then 1 else 0 } ∧
    exec (.rdStatusFinished p) s = .next { s with hostRd := if q.rcr.st ∈ [RecSt.done, .abort] then 1 else 0 } ∧
    exec (.rdStatusTrigAddr p) s = .next { s with hostRd := q.rcr.trigAddr } ∧
    exec (.rdStatusState p) s = .next { s with hostRd :=
      match q.rcr.st with
      | .idle => 0 | .fillPreTrig => 1 | .waitTrigger => 2 | .fillPostTrig => 3 | .done => 4 | .abort => 5 | .forced => 6 } ∧
    (∃ b l u : Word, b.toNat = s.par.base p ∧ l.toNat = s.par.length p ∧ u.toNat = s.par.addrStep ∧
      exec (.rdGeomBase p) s = .next { s with hostRd := b } ∧ exec (.rdGeomLength p) s = .next { s with hostRd := l } ∧
      exec (.rdGeomChunk p) s = .next { s with hostRd := 32 } ∧ exec (.rdGeomStep p) s = .next { s with hostRd := u })

/-- The accesses that have no effect (R409): a write of a read-only register is ignored, REC_START and REC_STOP read 0, and a reserved offset
reads 0 and ignores a write; none changes any other state. The word of a reserved access is the model's own (log 2, log 13). -/
def Obligations.OtherAccessesReadZeroOrAreIgnored : Prop :=
  ∀ (p : Pipe) (v : Word) (s : State),
    (∀ i ∈ [Instr.wrStatusTriggered p v, .wrStatusFinished p v, .wrStatusTrigAddr p v, .wrStatusState p v, .wrGeomBase p v,
      .wrGeomLength p v, .wrGeomChunk p v, .wrGeomStep p v], exec i s = .next s) ∧
    exec (.rdRecStart p) s = .next { s with hostRd := 0 } ∧
    exec (.rdRecStop p) s = .next { s with hostRd := 0 } ∧
    (∀ off rest, s.par.Valid → reservedOffset off = true →
      (s.sched = encodeCommand (.reservedRead p off) :: rest → step s = .next { s with sched := rest, hostRd := 0 }) ∧
      (s.sched = encodeCommand (.reservedWrite p off v) :: rest → step s = .next { s with sched := rest }))

/-! ### The clock, the input and the frames of all instructions -/

/-- A clock step advances the clock by 1 modulo 2^32 and does nothing else (R367). -/
def Obligations.ClockStepAdvancesTheClockAlone : Prop :=
  ∀ (s : State), ∃ t, exec .clock s = .next t ∧ t = { s with clock := t.clock } ∧ t.clock.toNat = (s.clock.toNat + 1) % 2 ^ 32

/-- A symbol row delivers its byte to the input of its pipeline: the first of a pair becomes lane 0 of a transfer, and the second completes
it as lane 1 and puts it at the end of `q_raw` (R11, R362). That a symbol row means its delivery is the MODEL'S CHOICE (log 7). -/
def Obligations.SymbolPairsBecomeTransfers : Prop :=
  ∀ (i : Instr) (p : Pipe) (b : SymByte) (s : State) (q : PipelineState), s.pipe p = q →
    symbolByte i = some b → instrPipe i = some p →
    (q.srcHalf = none → exec i s = .next (s.setPipe p { q with srcHalf := some b })) ∧
    (∀ a, q.srcHalf = some a →
      ∃ x : Xfer, x.lane0 = a ∧ x.lane1 = b ∧
        exec i s = .next (s.setPipe p { q with srcHalf := none, qRaw := q.qRaw ++ [x] }))

/-- The two pipelines are independent (R364): an instruction of one pipeline leaves the other's whole state as it was. -/
def Obligations.PeerPipelineIsUntouched : Prop :=
  ∀ (i : Instr) (s t : State) (p : Pipe), exec i s = .next t → instrPipe i = some p → t.pipe p.peer = s.pipe p.peer

/-- Who writes what (R360's table): each piece of a pipeline's state changes only in a step of the agent, or of the host's operation, that the
table names for it, and every other instruction leaves it as it was. The core never writes a configuration register or the pattern
table (R53, R54), nothing but a Recorder tick writes the ring (R70), START writes the stages and STOP `rec.st` (R400, R401), and only
CLOCK the clock. That no instruction changes the parameters or the schedule, and the clauses on `hostRd` and `srcHalf`, are about the
MODEL'S own fields (logs 1, 5, 7, 11). -/
def Obligations.EachKindOfStateHasItsWriters : Prop :=
  ∀ (i : Instr) (s t : State) (p : Pipe), exec i s = .next t →
    t.par = s.par ∧ t.sched = s.sched ∧
    (stepKind i ≠ .clock → t.clock = s.clock) ∧
    (stepKind i ≠ .hostRead → t.hostRd = s.hostRd) ∧
    (stepKind i ≠ .configWrite → (t.pipe p).bank = (s.pipe p).bank ∧ (t.pipe p).pattern = (s.pipe p).pattern) ∧
    (stepKind i ≠ .symbol → (t.pipe p).srcHalf = (s.pipe p).srcHalf) ∧
    (stepKind i ∉ [.symbol, .aligner] → (t.pipe p).qRaw = (s.pipe p).qRaw) ∧
    (stepKind i ∉ [.aligner, .start] →
      (t.pipe p).cls.phase = (s.pipe p).cls.phase ∧ (t.pipe p).cls.pend = (s.pipe p).cls.pend) ∧
    (stepKind i ∉ [.aligner, .labeller, .start] → (t.pipe p).cls.labq = (s.pipe p).cls.labq) ∧
    (stepKind i ∉ [.labeller, .start] →
      (t.pipe p).cls.rem = (s.pipe p).cls.rem ∧ (t.pipe p).cls.cur = (s.pipe p).cls.cur ∧
      (t.pipe p).cls.lfsr = (s.pipe p).cls.lfsr) ∧
    (stepKind i ∉ [.labeller, .writer, .start] → (t.pipe p).qCls = (s.pipe p).qCls) ∧
    (stepKind i ∉ [.writer, .start] → (t.pipe p).flt.w = (s.pipe p).flt.w) ∧
    (stepKind i ∉ [.writer, .reader, .start] → (t.pipe p).flt.fifo = (s.pipe p).flt.fifo) ∧
    (stepKind i ∉ [.reader, .start] →
      (t.pipe p).flt.r = (s.pipe p).flt.r ∧ (t.pipe p).flt.lastTs = (s.pipe p).flt.lastTs ∧
      (t.pipe p).flt.tsValid = (s.pipe p).flt.tsValid) ∧
    (stepKind i ∉ [.reader, .trigger, .start] → (t.pipe p).qFlt = (s.pipe p).qFlt) ∧
    (stepKind i ∉ [.trigger, .start] → (t.pipe p).trg = (s.pipe p).trg) ∧
    (stepKind i ∉ [.trigger, .recorder, .start] → (t.pipe p).qTrg = (s.pipe p).qTrg) ∧
    (stepKind i ∉ [.recorder, .start, .stop] → (t.pipe p).rcr.st = (s.pipe p).rcr.st) ∧
    (stepKind i ∉ [.recorder, .start] →
      (t.pipe p).rcr.cursor = (s.pipe p).rcr.cursor ∧ (t.pipe p).rcr.first = (s.pipe p).rcr.first ∧
      (t.pipe p).rcr.trigAddr = (s.pipe p).rcr.trigAddr ∧ (t.pipe p).rcr.preCnt = (s.pipe p).rcr.preCnt ∧
      (t.pipe p).rcr.postCnt = (s.pipe p).rcr.postCnt) ∧
    (stepKind i ≠ .recorder →
      (t.pipe p).rcr.s1 = (s.pipe p).rcr.s1 ∧ (t.pipe p).rcr.s2 = (s.pipe p).rcr.s2 ∧
      (t.pipe p).rcr.fprev = (s.pipe p).rcr.fprev ∧ (t.pipe p).ring = (s.pipe p).ring)

/-- Ring memory changes by one record write at the address the instruction stores to (R70, R303), and every other address of either ring
reads as before. An instruction that stores nothing leaves both rings as they were: every one that is no Recorder tick, and a tick whose
action writes no record (an idle tick, IDLE without a rise, FORCED with the wire low, DONE and ABORT), that the sink stalls, or whose
row `rec.st` does not select (R300, R314). -/
def Obligations.RingMemoryChangesOnlyAtTheStoreAddress : Prop :=
  ∀ (i : Instr) (s t : State) (p : Pipe), exec i s = .next t →
    ((∀ a, storeAddress i s ≠ some (p, a)) → (t.pipe p).ring = (s.pipe p).ring) ∧
    (∀ a, storeAddress i s = some (p, a) → ∃ w, (t.pipe p).ring = ringWrite (s.pipe p).ring a w) ∧
    (∀ a, storeAddress i s ≠ some (p, a) → ringRead (t.pipe p).ring a = ringRead (s.pipe p).ring a)

/-- What pipeline `p` becomes depends on its own state, the parameters, the clock and the peer's force wire alone (R363, R364). -/
def Obligations.PipelineDependsOnItselfClockAndForceWire : Prop :=
  ∀ (i : Instr) (p : Pipe) (s1 s2 t1 t2 : State), instrPipe i = some p →
    s1.par = s2.par → s1.clock = s2.clock → s1.pipe p = s2.pipe p →
    forceOut (s1.pipe p.peer).rcr = forceOut (s2.pipe p.peer).rcr →
    exec i s1 = .next t1 → exec i s2 = .next t2 → t1.pipe p = t2.pipe p

/-- Steps of the two pipelines commute unless a Recorder reads the peer's force wire or both are host reads (R364): the schedule between the
pipelines does not matter to them. -/
def Obligations.StepsOfDifferentPipelinesCommute : Prop :=
  ∀ (i j : Instr) (s : State), instrPipe i = some .rx → instrPipe j = some .tx →
    stepKind i ≠ .recorder → stepKind j ≠ .recorder → (stepKind i ≠ .hostRead ∨ stepKind j ≠ .hostRead) →
    andThen (exec i s) (exec j) = andThen (exec j s) (exec i)

/-! ### Classifier -/

/-- ALIGN (R150), by phase and by where COM is; on an empty `q_raw` the aligner does not step. -/
def Obligations.AlignStepByPhaseAndComma : Prop :=
  ∀ (p : Pipe) (s : State) (q : PipelineState) (r : Xfer) (rest : List Xfer), s.pipe p = q →
    (q.qRaw = [] → exec (.align p) s = .next s) ∧
    (q.qRaw = r :: rest → q.cls.phase = false →
      ((isCom r.lane0 = true ∨ isCom r.lane1 = false) →
        exec (.align p) s = .next (s.setPipe p { q with qRaw := rest, cls := { q.cls with labq := q.cls.labq ++ [r] } })) ∧
      (isCom r.lane0 = false ∧ isCom r.lane1 = true →
        exec (.align p) s =
          .next (s.setPipe p { q with qRaw := rest, cls := { q.cls with phase := true, pend := some r.lane1 } }))) ∧
    (∀ b, q.qRaw = r :: rest → q.cls.phase = true → q.cls.pend = some b →
      ((isCom r.lane1 = true ∨ isCom r.lane0 = false) →
        exec (.align p) s = .next (s.setPipe p { q with
          qRaw := rest
          cls := { q.cls with labq := q.cls.labq ++ [Xfer.mk2 b r.lane0], pend := some r.lane1 } })) ∧
      (isCom r.lane1 = false ∧ isCom r.lane0 = true →
        exec (.align p) s = .next (s.setPipe p { q with
          qRaw := rest
          cls := { q.cls with phase := false, pend := none, labq := q.cls.labq ++ [r] } })))

/-- Byte accounting of the aligner (R151): a step either keeps the byte stream whole and the phase, or changes the phase and drops exactly one
byte, the one immediately before a COM; no other byte is dropped, duplicated or moved. -/
def Obligations.AlignDropsOnlyTheByteBeforeAComma : Prop :=
  ∀ (p : Pipe) (s t : State) (r : Xfer) (rest : List Xfer),
    (s.pipe p).cls.Good → (s.pipe p).qRaw = r :: rest → exec (.align p) s = .next t →
    let before := byteStream (s.pipe p).cls.labq ++ (s.pipe p).cls.pend.toList ++ [r.lane0, r.lane1]
    let after := byteStream (t.pipe p).cls.labq ++ (t.pipe p).cls.pend.toList
    (t.pipe p).qRaw = rest ∧
    ((t.pipe p).cls.phase = (s.pipe p).cls.phase ∧ after = before ∨
     (t.pipe p).cls.phase ≠ (s.pipe p).cls.phase ∧
      ∃ pre d c post, before = pre ++ d :: c :: post ∧ isCom c = true ∧ after = pre ++ c :: post)

/-- The recognition table (R153) over a whole window `a0..a15`: the first row that holds gives the type, and a candidate that matches no row is
DATA (R154). -/
def Obligations.RecognitionTableGivesTheFirstRowThatHolds : Prop :=
  ∀ (a : Nat → SymByte),
    clsType ((List.range 16).map a) =
      if a 1 = ctl 0x1C ∧ a 2 = ctl 0x1C ∧ a 3 = ctl 0x1C then .skip
      else if a 1 = ctl 0x3C ∧ a 2 = ctl 0x3C ∧ a 3 = ctl 0x3C then .fts
      else if a 1 = ctl 0x7C ∧ a 2 = ctl 0x7C ∧ a 3 = ctl 0x7C then .idle
      else if a 1 = dat 0xB5 ∧ a 2 = ctl 0xBC ∧ a 3 = dat 0x4A then .compliance
      else if [1, 2, 3, 4, 5].all (fun n => a n ≠ ctl 0xBC) ∧ [6, 7, 8, 9, 10, 11, 12, 13, 14, 15].all (fun n => a n = dat 0x4A) then .ts1
      else if [1, 2, 3, 4, 5].all (fun n => a n ≠ ctl 0xBC) ∧ [6, 7, 8, 9, 10, 11, 12, 13, 14, 15].all (fun n => a n = dat 0x45) then .ts2
      else .data

/-- LABEL (R155) in the four cases of its enabling condition: the rest of a recognised set, no COM in lane 0, a COM whose window decides, and a
COM whose window does not yet decide, which waits (D48). The transfer goes to `q_cls` in the same step, descrambled by R158: lane 0 first,
from `cls.lfsr`, then lane 1 from the LFSR that lane 0 leaves, which leaves the next `cls.lfsr`. -/
def Obligations.LabelStepLabelsAndDescramblesTheHead : Prop :=
  ∀ (p : Pipe) (s : State) (q : PipelineState) (x : Xfer) (rest : List Xfer), s.pipe p = q → q.cls.labq = x :: rest →
    let emit := fun (os : OsType) (rem : Fin 8) (cur : OsType) =>
      let d0 := descrambleByte s.par.descrambleEn os x.lane0 q.cls.lfsr
      let d1 := descrambleByte s.par.descrambleEn os x.lane1 d0.2
      s.setPipe p { q with
        cls := { q.cls with labq := rest, rem := rem, cur := cur, lfsr := d1.2 }
        qCls := q.qCls ++ [{ data := d0.1.v ++ d1.1.v, ctrl := x.ctrl, os := os, isOs := decide (os ≠ .data) }] }
    (q.cls.rem ≠ 0 → exec (.label p) s = .next (emit q.cls.cur (q.cls.rem - 1) q.cls.cur)) ∧
    (q.cls.rem = 0 → isCom x.lane0 = false → exec (.label p) s = .next (emit .data 0 q.cls.cur)) ∧
    (q.cls.rem = 0 → isCom x.lane0 = true → (shortSetType (window q.cls.labq)).isSome ∨ 8 ≤ q.cls.labq.length →
      (clsType (window q.cls.labq) = .data → exec (.label p) s = .next (emit .data 0 q.cls.cur)) ∧
      (clsType (window q.cls.labq) ∈ [OsType.skip, .fts, .idle, .compliance] →
        exec (.label p) s = .next (emit (clsType (window q.cls.labq)) 1 (clsType (window q.cls.labq)))) ∧
      (clsType (window q.cls.labq) ∈ [OsType.ts1, .ts2] →
        exec (.label p) s = .next (emit (clsType (window q.cls.labq)) 7 (clsType (window q.cls.labq))))) ∧
    (q.cls.rem = 0 → isCom x.lane0 = true → shortSetType (window q.cls.labq) = none → q.cls.labq.length < 8 →
      exec (.label p) s = .next s)

/-- The labels do not depend on the schedule (R155): where the labeller can step, transfers that arrive behind the queue change neither what it
emits nor its state but for their place in the queue. -/
def Obligations.LabelDoesNotDependOnLaterTransfers : Prop :=
  ∀ (p : Pipe) (s t : State) (more : List Xfer),
    exec (.label p) s = .next t → (t.pipe p).qCls ≠ (s.pipe p).qCls →
    exec (.label p)
        (s.setPipe p { s.pipe p with cls := { (s.pipe p).cls with labq := (s.pipe p).cls.labq ++ more } }) =
      .next (t.setPipe p { t.pipe p with cls := { (t.pipe p).cls with labq := (t.pipe p).cls.labq ++ more } })

/-- DESCRAMBLE_BYTE (R156): COM initialises the LFSR, SKP holds it, every other byte advances it, and only data bytes outside training and
compliance sets are XORed, with the descrambler enabled; the control flag never changes. -/
def Obligations.DescrambleByteFollowsItsTable : Prop :=
  ∀ (en : Bool) (os : OsType) (b : SymByte) (l : BitVec 16),
    (descrambleByte en os b l).1.k = b.k ∧
    (b = ctl 0xBC → descrambleByte en os b l = (b, 0xFFFF)) ∧
    (b = ctl 0x1C → descrambleByte en os b l = (b, l)) ∧
    (b ≠ ctl 0xBC → b ≠ ctl 0x1C → (descrambleByte en os b l).2 = lfsrAdvance l) ∧
    (b.k = true ∨ os ∈ [OsType.ts1, .ts2, .compliance, .modifiedCompliance] ∨ en = false → (descrambleByte en os b l).1 = b) ∧
    (b.k = false → os ∉ [OsType.ts1, .ts2, .compliance, .modifiedCompliance] → en = true →
      (descrambleByte en os b l).1.v = b.v ^^^ lfsrKey l)

/-- The LFSR (R157): one serial shift is a shift left with 0x0039 XORed in where bit 15 was 1, eight make an advance, the key is the high byte
with its bits reversed, and from 0xFFFF the first four advances and sixteen keys are the ones the rule lists. -/
def Obligations.LfsrGivesTheListedValuesAndKeys : Prop :=
  (∀ l : BitVec 16, lfsrAdvance l =
    let step1 := fun l : BitVec 16 => (l <<< 1) ^^^ (if l.getLsbD 15 then 0x0039#16 else 0#16)
    step1 (step1 (step1 (step1 (step1 (step1 (step1 (step1 l)))))))) ∧
  (∀ (l : BitVec 16) (n : Nat), n < 8 → (lfsrKey l).getLsbD n = l.getLsbD (15 - n)) ∧
  (List.range 4).map (fun n => Nat.repeat lfsrAdvance (n + 1) 0xFFFF#16) = [0xE817, 0x0328, 0x284B, 0x4DE8] ∧
  (List.range 16).map (fun n => lfsrKey (Nat.repeat lfsrAdvance n 0xFFFF#16)) =
    [0xFF, 0x17, 0xC0, 0x14, 0xB2, 0xE7, 0x02, 0x82, 0x72, 0x6E, 0x28, 0xA6, 0xBE, 0x6D, 0xBF, 0x8D]

/-- With DESCRAMBLE_EN = 0 every byte passes unchanged (R159), and with either value the classifier's state after LABEL, the labels and the
control flags are the same. -/
def Obligations.DescramblerSwitchChangesDataOnly : Prop :=
  ∀ (p : Pipe) (s : State) (en : Bool) (x : Xfer) (rest : List Xfer), (s.pipe p).cls.labq = x :: rest →
    (∃ t u, exec (.label p) s = .next t ∧ exec (.label p) { s with par := { s.par with descrambleEn := en } } = .next u ∧
      (u.pipe p).cls = (t.pipe p).cls ∧
      (u.pipe p).qCls.map (fun c => (c.ctrl, c.os, c.isOs)) = (t.pipe p).qCls.map (fun c => (c.ctrl, c.os, c.isOs))) ∧
    (s.par.descrambleEn = false → ∀ t c, exec (.label p) s = .next t → (t.pipe p).qCls = (s.pipe p).qCls ++ [c] →
      c.data = x.data ∧ c.ctrl = x.ctrl)

/-! ### Frame Filter -/

/-- A disabled Filter passes everything: the writer's PASS row admits every item with kind NONE, no flags and no timestamp (R200, R206), and the
reader's pops the head and emits it with its kind and flags (R208), waiting on an empty FIFO (R207). -/
def Obligations.DisabledFilterPassesEverything : Prop :=
  ∀ (p : Pipe) (s : State) (q : PipelineState), s.pipe p = q → q.bank.filterEnable = false →
    (∀ x rest, q.qCls = x :: rest → q.flt.fifo.length < s.par.fifoDepth →
      exec (.filtWritePass p) s = .next (s.setPipe p { q with
        qCls := rest
        flt := { q.flt with
          w := .noFilter
          fifo := q.flt.fifo ++ [{ data := x.data, ctrl := x.ctrl, kind := .none, sof := false, eof := false, err := false,
                                   ts := 0 }] } })) ∧
    (q.flt.r = .noFilter → q.flt.fifo = [] → exec (.filtReadPass p) s = .next s) ∧
    (∀ h rest, q.flt.r = .noFilter → q.flt.fifo = h :: rest →
      exec (.filtReadPass p) s = .next (s.setPipe p { q with
        flt := { q.flt with fifo := rest }
        qFlt := q.qFlt ++ [{ data := h.data, ctrl := h.ctrl, kind := h.kind, isTs := false, sof := h.sof, eof := h.eof,
                             err := h.err }] }))

/-- FIND (R201, R202), enabled Filter: a recognised set with COM in lane 0 opens an ordered-set frame stamped with the clock; else a start symbol
in lane 0, with an END in lane 1 ending the frame at once; else a start symbol in lane 1; else the item is dropped. -/
def Obligations.FindOpensAFrameOrDropsFiller : Prop :=
  ∀ (p : Pipe) (s : State) (q : PipelineState) (x : ClassifiedTransfer) (rest : List ClassifiedTransfer), s.pipe p = q →
    q.qCls = x :: rest → q.flt.fifo.length < s.par.fifoDepth → q.bank.filterEnable = true →
    (q.flt.w = .noFilter ∨ q.flt.w = .find) →
    let b0 := lane0Of x.data x.ctrl
    let b1 := lane1Of x.data x.ctrl
    let opens := fun (k : FrameKind) (e : Bool) (w : WState) =>
      s.setPipe p { q with
        qCls := rest
        flt := { q.flt with
          w := w
          fifo := q.flt.fifo ++ [{ data := x.data, ctrl := x.ctrl, kind := k, sof := true, eof := e, err := false,
                                   ts := s.clock }] } }
    let isSet := b0 = ctl 0xBC ∧ x.os ∈ [OsType.skip, .fts, .ts1, .ts2]
    (b0 = ctl 0xBC → x.os = .skip → exec (.filtWriteFind p) s = .next (opens .skip false (.os 1 .skip))) ∧
    (b0 = ctl 0xBC → x.os = .fts → exec (.filtWriteFind p) s = .next (opens .fts false (.os 1 .fts))) ∧
    (b0 = ctl 0xBC → x.os = .ts1 → exec (.filtWriteFind p) s = .next (opens .ts1 false (.os 7 .ts1))) ∧
    (b0 = ctl 0xBC → x.os = .ts2 → exec (.filtWriteFind p) s = .next (opens .ts2 false (.os 7 .ts2))) ∧
    (b0 = ctl 0xFB → b1 = ctl 0xFD → exec (.filtWriteFind p) s = .next (opens .tlp true .find)) ∧
    (b0 = ctl 0xFB → b1 ≠ ctl 0xFD → exec (.filtWriteFind p) s = .next (opens .tlp false (.pkt .tlp 0))) ∧
    (b0 = ctl 0x5C → b1 = ctl 0xFD → exec (.filtWriteFind p) s = .next (opens .dllp true .find)) ∧
    (b0 = ctl 0x5C → b1 ≠ ctl 0xFD → exec (.filtWriteFind p) s = .next (opens .dllp false (.pkt .dllp 0))) ∧
    (¬ isSet → b0 ≠ ctl 0xFB → b0 ≠ ctl 0x5C → b1 = ctl 0xFB →
      exec (.filtWriteFind p) s = .next (opens .tlp false (.pkt .tlp 0))) ∧
    (¬ isSet → b0 ≠ ctl 0xFB → b0 ≠ ctl 0x5C → b1 = ctl 0x5C →
      exec (.filtWriteFind p) s = .next (opens .dllp false (.pkt .dllp 0))) ∧
    (¬ isSet → b0 ≠ ctl 0xFB → b0 ≠ ctl 0x5C → b1 ≠ ctl 0xFB → b1 ≠ ctl 0x5C →
      exec (.filtWriteFind p) s = .next (s.setPipe p { q with qCls := rest, flt := { q.flt with w := .find } }))

/-- OSBODY (R203): the body is counted; the item that ends it has `eof` and returns the writer to W_FIND. -/
def Obligations.OrderedSetBodyIsCounted : Prop :=
  ∀ (p : Pipe) (s : State) (q : PipelineState) (x : ClassifiedTransfer) (rest : List ClassifiedTransfer) (rem : Fin 8)
    (k : FrameKind), s.pipe p = q →
    q.qCls = x :: rest → q.flt.fifo.length < s.par.fifoDepth → q.bank.filterEnable = true → q.flt.w = .os rem k → rem ≠ 0 →
    exec (.filtWriteOsbody p) s = .next (s.setPipe p { q with
      qCls := rest
      flt := { q.flt with
        w := if rem.val = 1 then .find else .os (rem - 1) k
        fifo := q.flt.fifo ++ [{ data := x.data, ctrl := x.ctrl, kind := k, sof := false, eof := decide (rem.val = 1),
                                 err := false, ts := 0 }] } })

/-- PKT (R204, R205): a start symbol preempts, as FIND would open it; otherwise the item with count T + 1 is flagged `err` whether or not it holds
an END, an END up to count T ends the frame, and any other item is payload. -/
def Obligations.PacketItemPreemptsTimesOutEndsOrContinues : Prop :=
  ∀ (p : Pipe) (s : State) (q : PipelineState) (x : ClassifiedTransfer) (rest : List ClassifiedTransfer) (k : PktKind) (c : Nat),
    s.pipe p = q →
    q.qCls = x :: rest → q.flt.fifo.length < s.par.fifoDepth → q.bank.filterEnable = true → q.flt.w = .pkt k c →
    let b0 := lane0Of x.data x.ctrl
    let b1 := lane1Of x.data x.ctrl
    let kind := if k = .tlp then FrameKind.tlp else .dllp
    let starts := b0 ∈ [ctl 0xFB, ctl 0x5C] ∨ b1 ∈ [ctl 0xFB, ctl 0x5C]
    let ends := b0 = ctl 0xFD ∨ b1 = ctl 0xFD
    let admits := fun (eof err : Bool) (w : WState) =>
      s.setPipe p { q with
        qCls := rest
        flt := { q.flt with
          w := w
          fifo := q.flt.fifo ++ [{ data := x.data, ctrl := x.ctrl, kind := kind, sof := false, eof := eof, err := err,
                                   ts := 0 }] } }
    (starts → exec (.filtWritePkt p) s =
      exec (.filtWriteFind p) (s.setPipe p { q with flt := { q.flt with w := .find } })) ∧
    (¬ starts → q.bank.timeout.toNat < c + 1 → exec (.filtWritePkt p) s = .next (admits true true .find)) ∧
    (¬ starts → c + 1 ≤ q.bank.timeout.toNat → ends → exec (.filtWritePkt p) s = .next (admits true false .find)) ∧
    (¬ starts → c + 1 ≤ q.bank.timeout.toNat → ¬ ends → exec (.filtWritePkt p) s = .next (admits false false (.pkt k (c + 1))))

/-- A writer step needs an item and room in the FIFO (R200), whatever the item: without either, no writer row changes anything; and a row that
FILTER_ENABLE and `flt.w` do not select changes nothing (the MODEL'S CHOICE of log 4 for a row that is not selected; which row is selected
is its reading of R200, log 9). -/
def Obligations.WriterStallsWithoutRoomOrItem : Prop :=
  ∀ (p : Pipe) (s : State) (q : PipelineState), s.pipe p = q →
    (q.qCls = [] ∨ s.par.fifoDepth ≤ q.flt.fifo.length →
      ∀ i ∈ [Instr.filtWriteFind p, .filtWriteOsbody p, .filtWritePkt p, .filtWritePass p], exec i s = .next s) ∧
    (q.bank.filterEnable = false →
      ∀ i ∈ [Instr.filtWriteFind p, .filtWriteOsbody p, .filtWritePkt p], exec i s = .next s) ∧
    (q.bank.filterEnable = true → exec (.filtWritePass p) s = .next s) ∧
    (q.flt.w = .noFilter ∨ q.flt.w = .find → ∀ i ∈ [Instr.filtWriteOsbody p, .filtWritePkt p], exec i s = .next s) ∧
    (∀ rem k, q.flt.w = .os rem k → ∀ i ∈ [Instr.filtWriteFind p, .filtWritePkt p], exec i s = .next s) ∧
    (∀ k c, q.flt.w = .pkt k c → ∀ i ∈ [Instr.filtWriteFind p, .filtWriteOsbody p], exec i s = .next s)

/-- READ's switches (R207, R446): a change of FILTER_ENABLE beats the state's own action, with no pop and no emit. That the rows
FILT_READ_PASS, SELECT, TSINS and DRAIN carry the switch is the MODEL'S CHOICE (log 8): R208 to R211 do not have it, and the table has no
row for it. -/
def Obligations.ReaderSwitchesModeFirst : Prop :=
  ∀ (p : Pipe) (s : State) (q : PipelineState), s.pipe p = q →
    (q.bank.filterEnable = true → q.flt.r = .noFilter →
      exec (.filtReadPass p) s = .next (s.setPipe p { q with flt := { q.flt with r := .filter } })) ∧
    (q.bank.filterEnable = false → q.flt.r = .filter →
      exec (.filtReadSelect p) s = .next (s.setPipe p { q with flt := { q.flt with r := .noFilter } })) ∧
    (∀ h ts k, q.bank.filterEnable = false → q.flt.r = .tsi h ts k →
      exec (.filtReadTsins p) s = .next (s.setPipe p { q with flt := { q.flt with r := .noFilter } })) ∧
    (∀ k en st, q.bank.filterEnable = false → q.flt.r = .read k en st →
      exec (.filtReadDrain p) s = .next (s.setPipe p { q with flt := { q.flt with r := .noFilter } }))

/-- SELECT (R209): an item that starts no frame is discarded; a frame's start stays at the head, its timestamp is compared with the last one
examined, which it replaces even where its kind is disabled, and the frame is stamped, forwarded or drained. -/
def Obligations.SelectExaminesTheFrameAtTheHead : Prop :=
  ∀ (p : Pipe) (s : State) (q : PipelineState), s.pipe p = q → q.bank.filterEnable = true → q.flt.r = .filter →
    (q.flt.fifo = [] → exec (.filtReadSelect p) s = .next s) ∧
    (∀ h rest, q.flt.fifo = h :: rest →
      (h.sof = false →
        exec (.filtReadSelect p) s = .next (s.setPipe p { q with flt := { q.flt with fifo := rest } })) ∧
      (h.sof = true →
        let en := match h.kind with
          | .skip => q.bank.filterConfig.getLsbD 0 | .fts => q.bank.filterConfig.getLsbD 1
          | .ts1 => q.bank.filterConfig.getLsbD 2 | .ts2 => q.bank.filterConfig.getLsbD 3
          | .tlp => q.bank.filterConfig.getLsbD 4 | .dllp => q.bank.filterConfig.getLsbD 5 | .none => false
        (en = true → q.flt.tsValid = false ∨ h.ts ≠ q.flt.lastTs →
          exec (.filtReadSelect p) s = .next (s.setPipe p { q with
            flt := { q.flt with lastTs := h.ts, tsValid := true, r := .tsi .hi h.ts h.kind } })) ∧
        (en = false ∨ (q.flt.tsValid = true ∧ h.ts = q.flt.lastTs) →
          exec (.filtReadSelect p) s = .next (s.setPipe p { q with
            flt := { q.flt with lastTs := h.ts, tsValid := true, r := .read h.kind en false } }))))

/-- TSINS (R210): the high half, then the low half, as timestamp items with `ctrl = 0b00`, no flags and the frame's kind; the FIFO is not
touched. -/
def Obligations.TimestampIsInsertedHighHalfFirst : Prop :=
  ∀ (p : Pipe) (s : State) (q : PipelineState) (ts : Word) (k : FrameKind), s.pipe p = q → q.bank.filterEnable = true →
    (q.flt.r = .tsi .hi ts k →
      exec (.filtReadTsins p) s = .next (s.setPipe p { q with
        flt := { q.flt with r := .tsi .lo ts k }
        qFlt := q.qFlt ++ [{ data := BitVec.ofNat 16 (ts.toNat / 2 ^ 16), ctrl := 0, kind := k, isTs := true, sof := false,
                             eof := false, err := false }] })) ∧
    (q.flt.r = .tsi .lo ts k →
      exec (.filtReadTsins p) s = .next (s.setPipe p { q with
        flt := { q.flt with r := .read k true false }
        qFlt := q.qFlt ++ [{ data := BitVec.ofNat 16 (ts.toNat % 2 ^ 16), ctrl := 0, kind := k, isTs := true, sof := false,
                             eof := false, err := false }] }))

/-- DRAIN (R211): the next frame's start ends a preempted frame without a pop; otherwise the head is popped, emitted where the kind is enabled, and
an item with `eof` or `err` returns the reader to R_FILTER. -/
def Obligations.DrainForwardsOrDiscardsTheFrame : Prop :=
  ∀ (p : Pipe) (s : State) (q : PipelineState) (k : FrameKind) (en started : Bool), s.pipe p = q →
    q.bank.filterEnable = true → q.flt.r = .read k en started →
    (q.flt.fifo = [] → exec (.filtReadDrain p) s = .next s) ∧
    (∀ h rest, q.flt.fifo = h :: rest →
      (started = true ∧ h.sof = true →
        exec (.filtReadDrain p) s = .next (s.setPipe p { q with flt := { q.flt with r := .filter } })) ∧
      (started = false ∨ h.sof = false →
        exec (.filtReadDrain p) s = .next (s.setPipe p { q with
          flt := { q.flt with fifo := rest, r := if h.eof = true ∨ h.err = true then .filter else .read k en true }
          qFlt := if en then q.qFlt ++ [{ data := h.data, ctrl := h.ctrl, kind := h.kind, isTs := false, sof := h.sof,
                                          eof := h.eof, err := h.err }] else q.qFlt })))

/-- The error events have the causes of R440's table, and where the cause is absent no event is raised. EV_FRAME_TIMEOUT: a PKT step raises
it where it admits an item with `err = 1`. EV_ABORT: a STOP raises it with `v[0] = 1` in a capturing state. EV_MISMATCH: an item that is
compared raises it where the result of a track is 0, even where the other track completes. EV_OS_MALFORMED: a LABEL step raises it where
it labels a lane-0 COM, outside a recognised set, DATA. No other instruction raises any. The MODEL'S are: that the events are a list
computed beside the step (log 25), that an item that fails on both tracks raises one (log 35), and that the unaligned track compares two
entries from pointer 1 on, R263 over R261's count (log 34). -/
def Obligations.ErrorEventsHaveTheirCauses : Prop :=
  (∀ (p : Pipe) (s t : State) (it : FifoItem), exec (.filtWritePkt p) s = .next t →
    (t.pipe p).flt.fifo = (s.pipe p).flt.fifo ++ [it] →
    errorEvents (.filtWritePkt p) s = if it.err = true then [.frameTimeout] else []) ∧
  (∀ (p : Pipe) (s t : State), exec (.filtWritePkt p) s = .next t →
    (t.pipe p).flt.fifo = (s.pipe p).flt.fifo → errorEvents (.filtWritePkt p) s = []) ∧
  (∀ (p : Pipe) (v : Word) (s : State),
    errorEvents (.stop p v) s =
      if v.getLsbD 0 = true ∧ (s.pipe p).rcr.st ∈ [RecSt.fillPreTrig, .waitTrigger, .fillPostTrig, .forced] then [.abort] else []) ∧
  (∀ (p : Pipe) (s : State), (s.pipe p).qFlt = [] → errorEvents (.trig p) s = []) ∧
  (∀ (p : Pipe) (s : State) (q : PipelineState) (y : FiltOut) (rest : List FiltOut), s.pipe p = q → q.qFlt = y :: rest →
    let size := q.bank.trigSize.toNat
    let pa := if q.trg.st = .idle then 0 else q.trg.pa
    let pu := if q.trg.st = .idle then 0 else q.trg.pu
    let b0 := lane0Of y.data y.ctrl
    let b1 := lane1Of y.data y.ctrl
    let m := fun (n : Nat) (b : SymByte) => entryMatches (q.pattern.getD n .reset) b
    let fails := fun (n : Nat) => m n b0 = false ∨ (n + 1 < size ∧ m (n + 1) b1 = false)
    let compared := q.bank.trigArmed = true ∧ q.trg.st ≠ .done ∧ y.isTs = false ∧ pa < size ∧ pu < size
    let mismatch := fails pa ∨ (if pu = 0 then m 0 b1 = false else fails pu)
    (compared → mismatch → errorEvents (.trig p) s = [.mismatch]) ∧
    (¬ compared ∨ ¬ mismatch → errorEvents (.trig p) s = [])) ∧
  (∀ (p : Pipe) (s t : State) (x : Xfer) (rest : List Xfer) (c : ClassifiedTransfer), (s.pipe p).cls.labq = x :: rest →
    exec (.label p) s = .next t → (t.pipe p).qCls = (s.pipe p).qCls ++ [c] →
    errorEvents (.label p) s =
      if (s.pipe p).cls.rem = 0 ∧ isCom x.lane0 = true ∧ c.os = .data then [.osMalformed] else []) ∧
  (∀ (p : Pipe) (s t : State), exec (.label p) s = .next t →
    (t.pipe p).qCls = (s.pipe p).qCls → errorEvents (.label p) s = []) ∧
  (∀ (i : Instr) (s : State), stepKind i ∉ [.writer, .stop, .trigger, .labeller] → errorEvents i s = []) ∧
  (∀ (p : Pipe) (s : State),
    ∀ i ∈ [Instr.filtWriteFind p, .filtWriteOsbody p, .filtWritePass p], errorEvents i s = [])

/-! ### Trigger Engine -/

/-- Match of one entry against one byte (R260). -/
def Obligations.EntryMatchesByDataAndControl : Prop :=
  ∀ (e : PatternEntry) (b : SymByte),
    entryMatches e b = true ↔ (e.dataDontcare = true ∨ e.dataByte = b.v) ∧ (e.ctrlDontcare = true ∨ e.ctrlBit = b.k)

/-- TRIG where no track is compared (R264 to R266): on an empty queue the engine waits; while disarmed every item passes with `trig = 0` and the
engine is held in T_IDLE with both pointers 0; while armed, in T_DONE and on a timestamp item, the item passes with `trig = 0` and the
pointers stay, and a timestamp item takes T_IDLE to T_ACTIVE with both pointers 0. -/
def Obligations.EnginePassesItemsItDoesNotCompare : Prop :=
  ∀ (p : Pipe) (s : State) (q : PipelineState), s.pipe p = q →
    (q.qFlt = [] → exec (.trig p) s = .next s) ∧
    (∀ y rest, q.qFlt = y :: rest →
      let forwards := fun (t : TriggerState) =>
        s.setPipe p { q with qFlt := rest, trg := t, qTrg := q.qTrg ++ [{ item := y, trig := false }] }
      (q.bank.trigArmed = false → exec (.trig p) s = .next (forwards { st := .idle, pa := 0, pu := 0 })) ∧
      (q.bank.trigArmed = true → q.trg.st = .done → exec (.trig p) s = .next (forwards q.trg)) ∧
      (q.bank.trigArmed = true → q.trg.st = .active → y.isTs = true → exec (.trig p) s = .next (forwards q.trg)) ∧
      (q.bank.trigArmed = true → q.trg.st = .idle → y.isTs = true →
        exec (.trig p) s = .next (forwards { st := .active, pa := 0, pu := 0 })))

/-- TRIG on a link item while armed and not done (R262 to R264, R267): the tracks compare from their pointers, from 0 in T_IDLE; the trigger fires
where a pointer or a result has reached S, and otherwise the results become the pointers. Where the pattern ends at lane 0, lane 1 is
not compared, and a mismatch gives 0. That the unaligned track compares both E[n] and E[n+1] from pointer 1 on is the MODEL'S reading of
R263's pseudocode over R261's count of the entries a step reads (log 34). -/
def Obligations.ArmedEngineComparesBothTracks : Prop :=
  ∀ (p : Pipe) (s : State) (q : PipelineState) (y : FiltOut) (rest : List FiltOut), s.pipe p = q →
    q.qFlt = y :: rest → q.bank.trigArmed = true → q.trg.st ≠ .done → y.isTs = false →
    let size := q.bank.trigSize.toNat
    let pa := if q.trg.st = .idle then 0 else q.trg.pa
    let pu := if q.trg.st = .idle then 0 else q.trg.pu
    let b0 := lane0Of y.data y.ctrl
    let b1 := lane1Of y.data y.ctrl
    let m := fun (n : Nat) (b : SymByte) => entryMatches (q.pattern.getD n .reset) b
    let pair := fun (n : Nat) => if m n b0 = true ∧ (size ≤ n + 1 ∨ m (n + 1) b1 = true) then n + 2 else 0
    let qa := pair pa
    let qu := if pu = 0 then (if m 0 b1 = true then 1 else 0) else pair pu
    (size ≤ pa ∨ size ≤ pu ∨ size ≤ qa ∨ size ≤ qu →
      exec (.trig p) s = .next (s.setPipe p { q with
        qFlt := rest
        trg := { st := .done, pa := 0, pu := 0 }
        qTrg := q.qTrg ++ [{ item := y, trig := true }] })) ∧
    (pa < size → pu < size → qa < size → qu < size →
      exec (.trig p) s = .next (s.setPipe p { q with
        qFlt := rest
        trg := { st := .active, pa := qa, pu := qu }
        qTrg := q.qTrg ++ [{ item := y, trig := false }] }))

/-- Detection (R268), both tracks. A start position of a track is the first item after arming or START (T_IDLE) or, in T_ACTIVE, pointer 0
of that track. From there the engine takes items of which the non-timestamp ones are `m`, timestamp items among them anywhere. If their
bytes, from lane 0 of the first for the aligned track and from its lane 1 for the unaligned one, match the S entries, it fires at the
latest on the last of them: `m` is ⌈S/2⌉ for the aligned track and ⌊S/2⌋ + 1 for the unaligned one. -/
def Obligations.OccurrenceFromAStartPositionIsDetected : Prop :=
  ∀ (p : Pipe) (s : State) (q : PipelineState) (ys rest : List FiltOut), s.pipe p = q →
    q.qFlt = ys ++ rest → q.bank.trigArmed = true → 1 ≤ q.bank.trigSize.toNat →
    let size := q.bank.trigSize.toNat
    let link := ys.filter (fun y => !y.isTs)
    let bytes := link.flatMap fun y => [lane0Of y.data y.ctrl, lane1Of y.data y.ctrl]
    let matchesFrom := fun (offset : Nat) =>
      ∀ n b, n < size → bytes[offset + n]? = some b → entryMatches (q.pattern.getD n .reset) b = true
    let fires := ∃ t, runAgent p .trigger ys.length s = .next t ∧ (t.pipe p).trg.st = .done ∧
      ∃ o ∈ (t.pipe p).qTrg.drop q.qTrg.length, o.trig = true
    (q.trg.st = .idle ∨ (q.trg.st = .active ∧ q.trg.pa = 0) → link.length = (size + 1) / 2 → matchesFrom 0 → fires) ∧
    (q.trg.st = .idle ∨ (q.trg.st = .active ∧ q.trg.pu = 0) → link.length = size / 2 + 1 → matchesFrom 1 → fires)

/-! ### Ring Recorder -/

/-- The record layout (R109): each field at its bits, KIND by the codes of R105, and bits [31:27] zero. -/
def Obligations.RecordFieldsStandAtTheirBits : Prop :=
  ∀ (y : FiltOut) (tb first : Bool),
    (pack y tb first).extractLsb' 0 16 = y.data ∧ (pack y tb first).extractLsb' 16 2 = y.ctrl ∧
    (pack y tb first).getLsbD 18 = tb ∧ (pack y tb first).getLsbD 19 = first ∧ (pack y tb first).getLsbD 20 = y.isTs ∧
    (pack y tb first).getLsbD 21 = y.sof ∧ (pack y tb first).getLsbD 22 = y.eof ∧ (pack y tb first).getLsbD 23 = y.err ∧
    (pack y tb first).extractLsb' 24 3 =
      (match y.kind with
       | .skip => 0 | .fts => 1 | .ts1 => 2 | .ts2 => 3 | .tlp => 4 | .dllp => 5 | .none => 7) ∧
    (pack y tb first).extractLsb' 27 5 = 0

/-- Cursor advance and wrap (R304), computed without wrap at 32 bits; from a record address of the ring the next one is the next record address,
or BASE_P where that would reach BASE_P + LENGTH_P. -/
def Obligations.CursorAdvancesAndWraps : Prop :=
  ∀ (par : Params) (p : Pipe) (c : Word), par.Valid → InRing par p c.toNat →
    (nextCursor par p c).toNat =
      (if par.limit p ≤ c.toNat + par.addrStep then par.base p else c.toNat + par.addrStep) ∧
    (nextCursor par p c).toNat = par.base p + (c.toNat - par.base p + par.addrStep) % par.length p ∧
    InRing par p (nextCursor par p c).toNat

/-- REC_TICK_IDLE (R305): without a rise an item is dropped and nothing is written; a rise enters FORCED with the ring initialised as START does,
and an item of that tick is the first record, at BASE_P with FIRST = 1. Every tick ends by moving the synchroniser (R300). -/
def Obligations.IdleRecorderDropsOrIsForced : Prop :=
  ∀ (p : Pipe) (s : State) (q : PipelineState) (peer : Bool), s.pipe p = q → q.rcr.st = .idle →
    peer = decide ((s.pipe p.peer).rcr.st = .fillPostTrig) →
    let base := BitVec.ofNat 32 (s.par.base p)
    let forced : RecorderState :=
      { st := .forced, cursor := base, first := true, trigAddr := base, preCnt := 0, postCnt := 0, s1 := peer, s2 := q.rcr.s1,
        fprev := q.rcr.s2 }
    let rise := q.rcr.s2 = true ∧ q.rcr.fprev = false
    (¬ rise → exec (.recTickIdle p .idle) s =
      .next (s.setPipe p { q with rcr := { q.rcr with s1 := peer, s2 := q.rcr.s1, fprev := q.rcr.s2 } })) ∧
    (¬ rise → ∀ y rest sink, q.qTrg = y :: rest → exec (.recTickIdle p (.item sink)) s =
      .next (s.setPipe p { q with qTrg := rest, rcr := { q.rcr with s1 := peer, s2 := q.rcr.s1, fprev := q.rcr.s2 } })) ∧
    (rise → exec (.recTickIdle p .idle) s = .next (s.setPipe p { q with rcr := forced })) ∧
    (rise → ∀ y rest, q.qTrg = y :: rest → exec (.recTickIdle p (.item true)) s =
      .next (s.setPipe p { q with
        qTrg := rest
        ring := ringWrite q.ring base.toNat (pack y.item false true)
        rcr := { forced with first := false, cursor := nextCursor s.par p base } }))

/-- REC_TICK_PRE without a rise (R306): an item is written with TRIG = 0 whatever its `trig`, and counted if it is a unit (R302); the count test is
made on every tick, and once OFFSET units are counted the Recorder is in WAIT_TRIGGER. -/
def Obligations.PreTriggerFillWritesAndCounts : Prop :=
  ∀ (p : Pipe) (s : State) (q : PipelineState) (peer : Bool), s.pipe p = q → q.rcr.st = .fillPreTrig →
    peer = decide ((s.pipe p.peer).rcr.st = .fillPostTrig) → ¬ (q.rcr.s2 = true ∧ q.rcr.fprev = false) →
    let stFor := fun (n : Word) => if q.bank.recOffset.toNat ≤ n.toNat then RecSt.waitTrigger else .fillPreTrig
    exec (.recTickPre p .idle) s = .next (s.setPipe p { q with
      rcr := { q.rcr with st := stFor q.rcr.preCnt, s1 := peer, s2 := q.rcr.s1, fprev := q.rcr.s2 } }) ∧
    (∀ y rest, q.qTrg = y :: rest →
      let n := if q.bank.recMode = .raw ∨ y.item.isTs = false then q.rcr.preCnt + 1 else q.rcr.preCnt
      exec (.recTickPre p (.item true)) s = .next (s.setPipe p { q with
        qTrg := rest
        ring := ringWrite q.ring q.rcr.cursor.toNat (pack y.item false q.rcr.first)
        rcr := { q.rcr with
          st := stFor n, cursor := nextCursor s.par p q.rcr.cursor, first := false, preCnt := n
          s1 := peer, s2 := q.rcr.s1, fprev := q.rcr.s2 } }))

/-- REC_TICK_WAIT (R307, R446). Without a rise, an item without a trigger is retained in the ring and an idle tick changes the synchroniser
alone. An item with `trig = 1`, rise or no rise, is written at the cursor with TRIG = 1, `trigAddr` is that address, and the post-trigger
count starts at 1 where the trigger record counts; SIZE already reached means DONE at once. -/
def Obligations.WaitingRecorderRetainsUntilItsTrigger : Prop :=
  ∀ (p : Pipe) (s : State) (q : PipelineState) (peer : Bool), s.pipe p = q → q.rcr.st = .waitTrigger →
    peer = decide ((s.pipe p.peer).rcr.st = .fillPostTrig) →
    let rise := q.rcr.s2 = true ∧ q.rcr.fprev = false
    (¬ rise → exec (.recTickWait p .idle) s = .next (s.setPipe p { q with
      rcr := { q.rcr with s1 := peer, s2 := q.rcr.s1, fprev := q.rcr.s2 } })) ∧
    (∀ y rest, ¬ rise → q.qTrg = y :: rest → y.trig = false →
      exec (.recTickWait p (.item true)) s = .next (s.setPipe p { q with
        qTrg := rest
        ring := ringWrite q.ring q.rcr.cursor.toNat (pack y.item false q.rcr.first)
        rcr := { q.rcr with
          cursor := nextCursor s.par p q.rcr.cursor, first := false, s1 := peer, s2 := q.rcr.s1, fprev := q.rcr.s2 } })) ∧
    (∀ y rest, q.qTrg = y :: rest → y.trig = true →
      let n : Word := if s.par.postIncludesTrig = true ∧ (q.bank.recMode = .raw ∨ y.item.isTs = false) then 1 else 0
      exec (.recTickWait p (.item true)) s = .next (s.setPipe p { q with
        qTrg := rest
        ring := ringWrite q.ring q.rcr.cursor.toNat (pack y.item true q.rcr.first)
        rcr := { q.rcr with
          st := if q.bank.recSize.toNat ≤ n.toNat then .done else .fillPostTrig
          cursor := nextCursor s.par p q.rcr.cursor, first := false, trigAddr := q.rcr.cursor, postCnt := n
          s1 := peer, s2 := q.rcr.s1, fprev := q.rcr.s2 } }))

/-- The external trigger (R306, R307): a rise of the synchronised force wire in FILL_PRE_TRIG, or in WAIT_TRIGGER without an own trigger, sets
`trigAddr` to the cursor and starts the post-trigger count; an item of that tick is written with TRIG = 0. -/
def Obligations.ExternalTriggerStartsThePostWindow : Prop :=
  ∀ (p : Pipe) (s : State) (q : PipelineState) (peer : Bool), s.pipe p = q →
    peer = decide ((s.pipe p.peer).rcr.st = .fillPostTrig) → q.rcr.s2 = true → q.rcr.fprev = false →
    let stFor := fun (n : Word) => if q.bank.recSize.toNat ≤ n.toNat then RecSt.done else .fillPostTrig
    let idle := s.setPipe p { q with rcr := { q.rcr with
      st := stFor 0, trigAddr := q.rcr.cursor, postCnt := 0, s1 := peer, s2 := q.rcr.s1, fprev := true } }
    let item := fun (y : TrigOut) (rest : List TrigOut) =>
      let n : Word :=
        if s.par.postIncludesTrig = true ∧ (q.bank.recMode = .raw ∨ y.item.isTs = false) then 1 else 0
      s.setPipe p { q with
        qTrg := rest
        ring := ringWrite q.ring q.rcr.cursor.toNat (pack y.item false q.rcr.first)
        rcr := { q.rcr with
          st := stFor n, cursor := nextCursor s.par p q.rcr.cursor, first := false, trigAddr := q.rcr.cursor, postCnt := n
          s1 := peer, s2 := q.rcr.s1, fprev := true } }
    (q.rcr.st = .fillPreTrig →
      exec (.recTickPre p .idle) s = .next idle ∧
      ∀ y rest, q.qTrg = y :: rest → exec (.recTickPre p (.item true)) s = .next (item y rest)) ∧
    (q.rcr.st = .waitTrigger →
      exec (.recTickWait p .idle) s = .next idle ∧
      ∀ y rest, q.qTrg = y :: rest → y.trig = false → exec (.recTickWait p (.item true)) s = .next (item y rest))

/-- REC_TICK_POST (R308): an item is written with TRIG = 0 and counted if it is a unit; on every tick, SIZE units counted means DONE. -/
def Obligations.PostTriggerFillWritesUntilSize : Prop :=
  ∀ (p : Pipe) (s : State) (q : PipelineState) (peer : Bool), s.pipe p = q → q.rcr.st = .fillPostTrig →
    peer = decide ((s.pipe p.peer).rcr.st = .fillPostTrig) →
    let stFor := fun (n : Word) => if q.bank.recSize.toNat ≤ n.toNat then RecSt.done else .fillPostTrig
    exec (.recTickPost p .idle) s = .next (s.setPipe p { q with
      rcr := { q.rcr with st := stFor q.rcr.postCnt, s1 := peer, s2 := q.rcr.s1, fprev := q.rcr.s2 } }) ∧
    (∀ y rest, q.qTrg = y :: rest →
      let n := if q.bank.recMode = .raw ∨ y.item.isTs = false then q.rcr.postCnt + 1 else q.rcr.postCnt
      exec (.recTickPost p (.item true)) s = .next (s.setPipe p { q with
        qTrg := rest
        ring := ringWrite q.ring q.rcr.cursor.toNat (pack y.item false q.rcr.first)
        rcr := { q.rcr with
          st := stFor n, cursor := nextCursor s.par p q.rcr.cursor, first := false, postCnt := n
          s1 := peer, s2 := q.rcr.s1, fprev := q.rcr.s2 } }))

/-- REC_TICK_DONE_ABORT (R309): every item is accepted and discarded, whatever the sink, nothing is written, and a rise is lost.
REC_TICK_FORCED (R310): while the synchronised force wire is high an item is written with TRIG = 0, and neither OFFSET nor SIZE applies; with
the wire low the Recorder is DONE and the item is discarded. -/
def Obligations.FinishedDiscardsAndForcedWritesWhileTheWireIsHigh : Prop :=
  ∀ (p : Pipe) (s : State) (q : PipelineState) (peer : Bool), s.pipe p = q →
    peer = decide ((s.pipe p.peer).rcr.st = .fillPostTrig) →
    (q.rcr.st ∈ [RecSt.done, .abort] →
      exec (.recTickDoneAbort p .idle) s = .next (s.setPipe p { q with
        rcr := { q.rcr with s1 := peer, s2 := q.rcr.s1, fprev := q.rcr.s2 } }) ∧
      (∀ y rest sink, q.qTrg = y :: rest →
        exec (.recTickDoneAbort p (.item sink)) s = .next (s.setPipe p { q with
          qTrg := rest, rcr := { q.rcr with s1 := peer, s2 := q.rcr.s1, fprev := q.rcr.s2 } }))) ∧
    (q.rcr.st = .forced → q.rcr.s2 = false →
      exec (.recTickForced p .idle) s = .next (s.setPipe p { q with
        rcr := { q.rcr with st := .done, s1 := peer, s2 := q.rcr.s1, fprev := false } }) ∧
      (∀ y rest sink, q.qTrg = y :: rest →
        exec (.recTickForced p (.item sink)) s = .next (s.setPipe p { q with
          qTrg := rest, rcr := { q.rcr with st := .done, s1 := peer, s2 := q.rcr.s1, fprev := false } }))) ∧
    (q.rcr.st = .forced → q.rcr.s2 = true →
      exec (.recTickForced p .idle) s = .next (s.setPipe p { q with
        rcr := { q.rcr with s1 := peer, s2 := q.rcr.s1, fprev := true } }) ∧
      (∀ y rest, q.qTrg = y :: rest →
        exec (.recTickForced p (.item true)) s = .next (s.setPipe p { q with
          qTrg := rest
          ring := ringWrite q.ring q.rcr.cursor.toNat (pack y.item false q.rcr.first)
          rcr := { q.rcr with
            cursor := nextCursor s.par p q.rcr.cursor, first := false, s1 := peer, s2 := q.rcr.s1, fprev := true } })))

/-- Backpressure (R300, R314): an item tick with nothing in `q_trg` is not enabled, and neither is an item tick that would write while the sink
is not ready; the Recorder and the queue then stay as they are. A row that `rec.st` does not select changes nothing (the MODEL'S CHOICE
of log 4). -/
def Obligations.RecorderWaitsForItemAndSink : Prop :=
  ∀ (p : Pipe) (s : State) (q : PipelineState) (t : Tick), s.pipe p = q →
    (∀ sink, q.qTrg = [] →
      ∀ i ∈ [Instr.recTickIdle p (.item sink), .recTickPre p (.item sink), .recTickWait p (.item sink),
        .recTickPost p (.item sink), .recTickDoneAbort p (.item sink), .recTickForced p (.item sink)], exec i s = .next s) ∧
    (∀ i ∈ [Instr.recTickPre p (.item false), .recTickWait p (.item false), .recTickPost p (.item false)],
      exec i s = .next s) ∧
    (q.rcr.s2 = true → q.rcr.fprev = false → exec (.recTickIdle p (.item false)) s = .next s) ∧
    (q.rcr.s2 = true → exec (.recTickForced p (.item false)) s = .next s) ∧
    (q.rcr.st ≠ .idle → exec (.recTickIdle p t) s = .next s) ∧
    (q.rcr.st ≠ .fillPreTrig → exec (.recTickPre p t) s = .next s) ∧
    (q.rcr.st ≠ .waitTrigger → exec (.recTickWait p t) s = .next s) ∧
    (q.rcr.st ≠ .fillPostTrig → exec (.recTickPost p t) s = .next s) ∧
    (q.rcr.st ≠ .done → q.rcr.st ≠ .abort → exec (.recTickDoneAbort p t) s = .next s) ∧
    (q.rcr.st ≠ .forced → exec (.recTickForced p t) s = .next s)

/-- The force-wire synchroniser (R301, R363): whatever the Recorder's states, its third idle tick after a state sees, as the synchronised force, the
peer's `force_out` of that state, and not earlier: the second still sees the old first stage, the first the old second stage. -/
def Obligations.ForceWireIsSeenOnTheThirdTick : Prop :=
  ∀ (p : Pipe) (s : State), ∃ t1 t2 t3,
    runAgent p (.recorder .idle) 1 s = .next t1 ∧ runAgent p (.recorder .idle) 2 s = .next t2 ∧
    runAgent p (.recorder .idle) 3 s = .next t3 ∧
    (t1.pipe p).rcr.fprev = (s.pipe p).rcr.s2 ∧ (t2.pipe p).rcr.fprev = (s.pipe p).rcr.s1 ∧
    (t3.pipe p).rcr.fprev = decide ((s.pipe p.peer).rcr.st = .fillPostTrig) ∧
    (t2.pipe p).rcr.s2 = decide ((s.pipe p.peer).rcr.st = .fillPostTrig)

/-- The captured window (R312). A Recorder as START leaves it, with POST_INCLUDES_TRIG, in RAW mode, its ring at least OFFSET + SIZE records
long, SIZE ≥ 1 and no force from the peer, takes items one a tick; the first item with `trig = 1` at or after item OFFSET is item `j`.
After item `j + SIZE - 1` the Recorder is DONE, and the ring holds the OFFSET + SIZE records of items `j - OFFSET, …` in write order at
the addresses `W_k` of the rule, the trigger record at `W_OFFSET = trigAddr`. -/
def Obligations.CapturedWindowHoldsOffsetPlusSizeRecords : Prop :=
  ∀ (p : Pipe) (s : State) (off size : Word) (ys rest : List TrigOut) (j : Nat) (fp : Bool),
    s.par.Valid → s.par.postIncludesTrig = true → (s.pipe p).bank.recMode = .raw →
    (s.pipe p).bank.recOffset = off → (s.pipe p).bank.recSize = size → 1 ≤ size.toNat →
    (off.toNat + size.toNat) * s.par.addrStep ≤ s.par.length p →
    (s.pipe p).rcr =
      { st := if off = 0 then .waitTrigger else .fillPreTrig
        cursor := BitVec.ofNat 32 (s.par.base p), first := true, trigAddr := BitVec.ofNat 32 (s.par.base p)
        preCnt := 0, postCnt := 0, s1 := false, s2 := false, fprev := fp } →
    (s.pipe p.peer).rcr.st ≠ .fillPostTrig →
    (s.pipe p).qTrg = ys ++ rest → ys.length = j + size.toNat → off.toNat ≤ j →
    (∃ y, ys[j]? = some y ∧ y.trig = true) →
    (∀ n y, off.toNat ≤ n → n < j → ys[n]? = some y → y.trig = false) →
    ∃ t, runAgent p (.recorder (.item true)) ys.length s = .next t ∧
      (t.pipe p).rcr.st = .done ∧ (t.pipe p).qTrg = rest ∧
      let base : Int := s.par.base p
      let length : Int := s.par.length p
      let unit : Int := s.par.addrStep
      let trigAddr : Int := (t.pipe p).rcr.trigAddr.toNat
      let start : Int := base + (trigAddr - base - off.toNat * unit) % length
      let window := fun (k : Nat) => base + (start - base + k * unit) % length
      window off.toNat = trigAddr ∧
      ∀ k, k < off.toNat + size.toNat →
        ∃ y, ys[j - off.toNat + k]? = some y ∧
          ringRead (t.pipe p).ring (window k).toNat =
            some (pack y.item (decide (k = off.toNat)) (decide (j - off.toNat + k = 0)))

/-! ### Runs without end -/

/-- Fair runs process every item (R365). In a fair run from a good state, the item at the head of each queue of a pipeline is eventually taken
by the stage behind the queue, unless START empties the queue first, which it does not do to `q_raw`. Two provisos: the head of the
aligned queue may be held for ever as a candidate set with fewer than 8 transfers (the spec's D48), and for the Filter's two queues
FILTER_ENABLE must be left as it is, as R368 has it, since a host that switches it for ever may keep the reader from ever popping. That a
fair Recorder takes item ticks is the MODEL'S reading (log 18). -/
def Obligations.FairRunsProcessTheHeadOfEveryQueue : Prop :=
  ∀ (cmd : Nat → Command) (st : Nat → State) (sink : Pipe → Nat → Bool) (p : Pipe) (n : Nat),
    (st 0).Inv → IsRun cmd st → FairRun cmd st sink →
    let filterStays := ∀ m, n ≤ m → ((st m).pipe p).bank.filterEnable = ((st n).pipe p).bank.filterEnable
    (((st n).pipe p).qRaw ≠ [] → ∃ m, n ≤ m ∧ TakesHeadAt (·.qRaw) st p m) ∧
    (((st n).pipe p).cls.labq ≠ [] →
      HeadProcessed (·.cls.labq) cmd st p n ∨
      ∀ m, n ≤ m → ((st m).pipe p).cls.rem = 0 ∧ ((st m).pipe p).cls.labq.length < 8 ∧
        ∃ x rest, ((st m).pipe p).cls.labq = x :: rest ∧ isCom x.lane0 = true ∧
          shortSetType (window ((st m).pipe p).cls.labq) = none) ∧
    (((st n).pipe p).qCls ≠ [] → filterStays → HeadProcessed (·.qCls) cmd st p n) ∧
    (((st n).pipe p).flt.fifo ≠ [] → filterStays → HeadProcessed (·.flt.fifo) cmd st p n) ∧
    (((st n).pipe p).qFlt ≠ [] → HeadProcessed (·.qFlt) cmd st p n) ∧
    (((st n).pipe p).qTrg ≠ [] → HeadProcessed (·.qTrg) cmd st p n)

/-- What a host that reads ring memory during a run sees (R75, R78, R80). A step performs at most one record write, so the ring before an
earlier step holds a prefix of the writes issued so far. While the pipeline captures, a read may see any such prefix that contains what
the host has found before (the MODEL'S reading of R79, log 32) and the writes before the last observation of STATUS_FINISHED = 1 (to see
DONE or ABORT in STATUS_STATE is no such observation, by the MODEL'S CHOICE of log 33). While it does not capture, a read gives at each
address the record that stands there. After an observation of FINISHED it gives the record that stood there at the observation, as long
as the Recorder stays in DONE or ABORT, or in IDLE after a STOP, and in a later capture at every address not written since. -/
def Obligations.HostReadsSeeAPrefixUntilFinishedIsObserved : Prop :=
  ∀ (cmd : Nat → Command) (st : Nat → State) (p : Pipe) (reads : Nat → Prop), IsRun cmd st →
    (∀ n, ((st (n + 1)).pipe p).ring = ((st n).pipe p).ring ∨
      ∃ a w, ((st (n + 1)).pipe p).ring = ringWrite ((st n).pipe p).ring a w) ∧
    (∀ m n, m ≤ n → isCapturing ((st n).pipe p).rcr = true →
      (∀ f, f < n → ObservesFinishedAt cmd st p f → f ≤ m) →
      (∀ k, k < n → reads k → isCapturing ((st k).pipe p).rcr = false → k ≤ m) →
      ∃ view, RingView cmd st p reads view ∧ view n = m) ∧
    (∀ view n a, RingView cmd st p reads view → isCapturing ((st n).pipe p).rcr = false →
      hostRingRead p ((st (view n)).pipe p).ring a = hostRingRead p ((st n).pipe p).ring a ∧
      ∀ w, ringRead ((st n).pipe p).ring a = some w → hostRingRead p ((st (view n)).pipe p).ring a = w) ∧
    (∀ view f n, RingView cmd st p reads view → f < n → ObservesFinishedAt cmd st p f →
      ((∀ k, f ≤ k → k ≤ n → ((st k).pipe p).rcr.st ∈ [RecSt.done, .abort, .idle]) →
        ∀ a, hostRingRead p ((st (view n)).pipe p).ring a = hostRingRead p ((st f).pipe p).ring a ∧
          ∀ w, ringRead ((st f).pipe p).ring a = some w → hostRingRead p ((st (view n)).pipe p).ring a = w) ∧
      ∀ a, (∀ k, f ≤ k → k ≤ n → ringRead ((st k).pipe p).ring a = ringRead ((st f).pipe p).ring a) →
        hostRingRead p ((st (view n)).pipe p).ring a = hostRingRead p ((st f).pipe p).ring a)
end

