-- ==== Sys2Proof/Laws/Decode.lean ====
section
/-! SUPPORT. The fields of a command word and the word of fields are inverse, so decoding is about fields alone. -/

namespace Sys2Proof

/-- An append as a number. -/
theorem toNat_append_eq {m n : Nat} (x : BitVec m) (y : BitVec n) : (x ++ y).toNat = x.toNat * 2 ^ n + y.toNat := by
  rw [BitVec.toNat_append, ← Nat.shiftLeft_add_eq_or_of_lt y.isLt, Nat.shiftLeft_eq]

/-- The word of given fields as a number. -/
theorem CmdFields.toWord_toNat (f : CmdFields) :
    f.toWord.toNat =
      (((f.fmt.toNat * 2 + f.pipe.toNat) * 2 ^ 2 + f.width.toNat) * 2 ^ 32 + f.value.toNat) * 2 ^ 16 + f.code.toNat := by
  obtain ⟨c, v, w, p, t⟩ := f
  have h : (t ++ BitVec.ofBool p ++ w ++ v ++ c).toNat =
      (((t.toNat * 2 + p.toNat) * 2 ^ 2 + w.toNat) * 2 ^ 32 + v.toNat) * 2 ^ 16 + c.toNat := by
    simp only [toNat_append_eq, BitVec.toNat_ofBool]
    omega
  exact h

@[simp] theorem CmdFields.ofWord_toWord (f : CmdFields) : CmdFields.ofWord f.toWord = f := by
  have h := f.toWord_toNat
  obtain ⟨c, v, w, p, t⟩ := f
  have := c.isLt; have := v.isLt; have := w.isLt; have := t.isLt; have := p.toNat_lt
  simp only [CmdFields.ofWord, CmdFields.mk.injEq]
  refine ⟨BitVec.eq_of_toNat_eq ?_, BitVec.eq_of_toNat_eq ?_, BitVec.eq_of_toNat_eq ?_, ?_, BitVec.eq_of_toNat_eq ?_⟩
  · rw [BitVec.extractLsb'_toNat, h, Nat.shiftRight_eq_div_pow]; dsimp only; omega
  · rw [BitVec.extractLsb'_toNat, h, Nat.shiftRight_eq_div_pow]; dsimp only; omega
  · rw [BitVec.extractLsb'_toNat, h, Nat.shiftRight_eq_div_pow]; dsimp only; omega
  · rw [BitVec.getLsbD, h, Nat.testBit_eq_decide_div_mod_eq]
    dsimp only
    cases p <;> simp <;> omega
  · rw [BitVec.extractLsb'_toNat, h, Nat.shiftRight_eq_div_pow]; dsimp only; omega

@[simp] theorem CmdFields.toWord_ofWord (w : CmdWord) : (CmdFields.ofWord w).toWord = w := by
  apply BitVec.eq_of_toNat_eq
  have := w.isLt
  rw [CmdFields.toWord_toNat]
  simp only [CmdFields.ofWord, BitVec.extractLsb'_toNat, Nat.shiftRight_eq_div_pow, BitVec.getLsbD, Nat.testBit_eq_decide_div_mod_eq]
  have hp : (decide (w.toNat / 2 ^ 50 % 2 = 1)).toNat = w.toNat / 2 ^ 50 % 2 := by
    rcases Nat.mod_two_eq_zero_or_one (w.toNat / 2 ^ 50) with h | h <;> rw [h] <;> rfl
  rw [hp]
  omega

/-- Decoding the word of given fields is decoding the fields. -/
@[simp] theorem decode_toWord (f : CmdFields) : decode f.toWord = decodeFields f := by
  simp [decode]

@[simp] theorem pipeOfBit_bitOfPipe (p : Pipe) : pipeOfBit (bitOfPipe p) = p := by cases p <;> rfl

@[simp] theorem bitOfPipe_pipeOfBit (b : Bool) : bitOfPipe (pipeOfBit b) = b := by cases b <;> rfl

@[simp] theorem tickOfValue_valueOfTick (t : Tick) : tickOfValue (valueOfTick t) = some t := by
  cases t with
  | idle => rfl
  | item b => cases b <;> rfl

end Sys2Proof
end

