-- ==== Sys2Proof/Laws/Memory.lean ====
section
/-! SUPPORT. The ring memory: a read after a write, and the canonical form, which every memory operation keeps. -/

namespace Sys2Proof.Machine

/-- Reading back a write. -/
@[simp] theorem ringRead_ringWrite_same (m : Memory) (a : Nat) (w : Word) : ringRead (ringWrite m a w) a = some w := by
  induction m with
  | nil => simp [ringWrite, ringRead]
  | cons e rest ih =>
    obtain ⟨b, x⟩ := e
    simp only [ringWrite]
    split
    · simp [ringRead]
    · split
      · simp [ringRead]
      · simp_all [ringRead]

/-- A write leaves every other address alone. -/
theorem ringRead_ringWrite_other (m : Memory) {a b : Nat} (w : Word) (h : b ≠ a) :
    ringRead (ringWrite m a w) b = ringRead m b := by
  induction m with
  | nil => simp [ringWrite, ringRead, h]
  | cons e rest ih =>
    obtain ⟨c, x⟩ := e
    simp only [ringWrite]
    split
    · simp [ringRead, h]
    · split
      · simp_all [ringRead]
      · simp only [ringRead, ih]

/-- The entries of a memory after a write. -/
theorem mem_ringWrite {m : Memory} {a : Nat} {w : Word} {e : Nat × Word} (h : e ∈ ringWrite m a w) : e = (a, w) ∨ e ∈ m := by
  induction m with
  | nil => simpa [ringWrite] using h
  | cons f rest ih =>
    obtain ⟨b, x⟩ := f
    simp only [ringWrite] at h
    split at h
    · simpa using h
    · split at h <;> simp only [List.mem_cons] at h ⊢ <;> grind

/-- The canonical form of a non-empty memory. -/
theorem Memory.wf_cons (e : Nat × Word) (rest : Memory) :
    Memory.wf (e :: rest) = true ↔ (∀ f ∈ rest.head?, e.1 < f.1) ∧ Memory.wf rest = true := by
  cases rest <;> simp [Memory.wf]

/-- The first address after a write. -/
theorem head_ringWrite (m : Memory) (a : Nat) (w : Word) :
    ∀ f ∈ (ringWrite m a w).head?, f.1 = a ∨ (f.1 < a ∧ f ∈ m.head?) := by
  cases m with
  | nil => simp [ringWrite]
  | cons e rest =>
    obtain ⟨b, x⟩ := e
    simp only [ringWrite]
    split
    · simp
    · split
      · simp
      · simp; omega

/-- Every write keeps the canonical form. -/
theorem Memory.wf_ringWrite {m : Memory} (h : Memory.wf m = true) (a : Nat) (w : Word) : Memory.wf (ringWrite m a w) = true := by
  induction m with
  | nil => rfl
  | cons e rest ih =>
    obtain ⟨b, x⟩ := e
    have hr := (Memory.wf_cons _ _).mp h
    simp only [ringWrite]
    split
    · exact (Memory.wf_cons _ _).mpr ⟨by simpa using ‹_›, h⟩
    · split
      · exact (Memory.wf_cons _ _).mpr ⟨by subst a; simpa using hr.1, hr.2⟩
      · refine (Memory.wf_cons _ _).mpr ⟨fun f hf => ?_, ih hr.2⟩
        rcases head_ringWrite rest a w f hf with h1 | ⟨_, h2⟩
        · simp only; omega
        · exact hr.1 f h2

/-- Reset memory lists nothing, and has the canonical form. -/
theorem Memory.wf_reset (p : Pipe) : Memory.wf (State.reset.pipe p).ring = true := by cases p <;> rfl

/-- A host read of ring memory returns the record where one has been written. -/
theorem hostRingRead_written (p : Pipe) {m : Memory} {a : Nat} {w : Word} (h : ringRead m a = some w) : hostRingRead p m a = w := by
  simp [hostRingRead, h]

end Sys2Proof.Machine
end

