-- ==== Sys2Proof/Laws/State.lean ====
section
/-! SUPPORT. What a replaced pipeline, and each update of the machine's own fields, leaves readable: one lemma per field per update. -/

namespace Sys2Proof.Machine

open Sys2Proof.Config

@[simp] theorem peer_peer (p : Pipe) : p.peer.peer = p := by cases p <;> rfl

@[simp] theorem peer_ne (p : Pipe) : p.peer ≠ p := by cases p <;> decide

@[simp] theorem ne_peer (p : Pipe) : p ≠ p.peer := by cases p <;> decide

/-! ### Replacing a pipeline -/

@[simp] theorem State.pipe_rx (s : State) : s.pipe .rx = s.rx := rfl
@[simp] theorem State.pipe_tx (s : State) : s.pipe .tx = s.tx := rfl

@[simp] theorem State.setPipe_pipe (s : State) (p : Pipe) (q : PipelineState) : (s.setPipe p q).pipe p = q := by cases p <;> rfl

@[simp] theorem State.setPipe_pipe_peer (s : State) (p : Pipe) (q : PipelineState) :
    (s.setPipe p q).pipe p.peer = s.pipe p.peer := by cases p <;> rfl

@[simp] theorem State.setPipe_peer_pipe (s : State) (p : Pipe) (q : PipelineState) :
    (s.setPipe p.peer q).pipe p = s.pipe p := by cases p <;> rfl

theorem State.setPipe_pipe_of_ne (s : State) {p r : Pipe} (q : PipelineState) (h : r ≠ p) :
    (s.setPipe p q).pipe r = s.pipe r := by cases p <;> cases r <;> first | rfl | exact absurd rfl h

@[simp] theorem State.setPipe_par (s : State) (p : Pipe) (q : PipelineState) : (s.setPipe p q).par = s.par := by cases p <;> rfl
@[simp] theorem State.setPipe_clock (s : State) (p : Pipe) (q : PipelineState) : (s.setPipe p q).clock = s.clock := by
  cases p <;> rfl
@[simp] theorem State.setPipe_hostRd (s : State) (p : Pipe) (q : PipelineState) : (s.setPipe p q).hostRd = s.hostRd := by
  cases p <;> rfl
@[simp] theorem State.setPipe_sched (s : State) (p : Pipe) (q : PipelineState) : (s.setPipe p q).sched = s.sched := by
  cases p <;> rfl

/-- Putting a pipeline's own state back changes nothing. -/
@[simp] theorem State.setPipe_self (s : State) (p : Pipe) : s.setPipe p (s.pipe p) = s := by cases p <;> rfl

/-- The later replacement stands. -/
@[simp] theorem State.setPipe_setPipe (s : State) (p : Pipe) (q r : PipelineState) : (s.setPipe p q).setPipe p r = s.setPipe p r := by
  cases p <;> rfl

/-- Replacements of the two pipelines commute. -/
theorem State.setPipe_comm (s : State) (p : Pipe) (q r : PipelineState) :
    (s.setPipe p q).setPipe p.peer r = (s.setPipe p.peer r).setPipe p q := by cases p <;> rfl

/-! ### The machine's own fields -/

@[simp] theorem State.withClock_pipe (s : State) (c : Word) (p : Pipe) : ({ s with clock := c } : State).pipe p = s.pipe p := by
  cases p <;> rfl
@[simp] theorem State.withHostRd_pipe (s : State) (v : Word) (p : Pipe) : ({ s with hostRd := v } : State).pipe p = s.pipe p := by
  cases p <;> rfl
@[simp] theorem State.withSched_pipe (s : State) (l : List CmdWord) (p : Pipe) :
    ({ s with sched := l } : State).pipe p = s.pipe p := by cases p <;> rfl
@[simp] theorem State.withPar_pipe (s : State) (c : Params) (p : Pipe) : ({ s with par := c } : State).pipe p = s.pipe p := by
  cases p <;> rfl

/-- A host read's value and a replaced pipeline are independent. -/
theorem State.setPipe_withHostRd (s : State) (p : Pipe) (q : PipelineState) (v : Word) :
    ({ s with hostRd := v } : State).setPipe p q = { (s.setPipe p q) with hostRd := v } := by cases p <;> rfl

/-- Two states with the same parameters, pipelines, clock, last-read value and schedule are the same. -/
theorem State.ext_pipe {s t : State} (hpar : s.par = t.par) (hpipe : ∀ p, s.pipe p = t.pipe p) (hclock : s.clock = t.clock)
    (hrd : s.hostRd = t.hostRd) (hsched : s.sched = t.sched) : s = t := by
  cases s; cases t; simp_all
  exact ⟨hpipe .rx, hpipe .tx⟩

/-! ### Reset -/

@[simp] theorem State.resetWith_par (par : Params) : (State.resetWith par).par = par := rfl
@[simp] theorem State.resetWith_pipe (par : Params) (p : Pipe) : (State.resetWith par).pipe p = .reset par p := by cases p <;> rfl
@[simp] theorem State.resetWith_clock (par : Params) : (State.resetWith par).clock = 0 := rfl

end Sys2Proof.Machine
end

