-- ==== Sys2Proof/Laws/Ops.lean ====
section
/-! SUPPORT. What each shared operation can do, said once: where it answers a next state, and which one. -/

namespace Sys2Proof.Machine

open Sys2Proof.Config Host

/-! ### Host accesses and symbols -/

@[simp] theorem hostWrite_eq (p : Pipe) (f : PipelineState → PipelineState) (s : State) :
    hostWrite p f s = .next (s.setPipe p (f (s.pipe p))) := rfl

@[simp] theorem bankWrite_eq (p : Pipe) (f : Bank → Bank) (s : State) :
    bankWrite p f s = .next (s.setPipe p { s.pipe p with bank := f (s.pipe p).bank }) := rfl

@[simp] theorem ignoredWrite_eq (s : State) : ignoredWrite s = .next s := rfl

@[simp] theorem hostRead_eq (v : Word) (s : State) : hostRead v s = .next { s with hostRd := v } := rfl

/-- The first byte of a pair is held. -/
theorem deliver_first {p : Pipe} {s : State} (b : SymByte) (h : (s.pipe p).srcHalf = none) :
    deliver p b s = .next (s.setPipe p { s.pipe p with srcHalf := some b }) := by
  simp [deliver, h]

/-- The second byte of a pair completes a transfer. -/
theorem deliver_second {p : Pipe} {s : State} {a : SymByte} (b : SymByte) (h : (s.pipe p).srcHalf = some a) :
    deliver p b s =
      .next (s.setPipe p { s.pipe p with srcHalf := none, qRaw := (s.pipe p).qRaw ++ [Xfer.mk2 a b] }) := by
  simp [deliver, h]

/-! ### The schedule -/

theorem fetch_nil {s : State} (h : s.sched = []) : fetch s = none := by simp [fetch, h]

theorem fetch_cons {s : State} {w : CmdWord} {rest : List CmdWord} (h : s.sched = w :: rest) :
    fetch s = some (w, { s with sched := rest }) := by simp [fetch, h]

/-! ### An agent's step -/

/-- An agent whose row is not enabled does not step. -/
theorem agentStep_none {p : Pipe} {act : PipelineState → Option PipelineState} {s : State} (h : act (s.pipe p) = none) :
    agentStep p act s = .next s := by simp [agentStep, h]

/-- An agent whose row is enabled replaces its own pipeline's state. -/
theorem agentStep_some {p : Pipe} {act : PipelineState → Option PipelineState} {s : State} {q : PipelineState}
    (h : act (s.pipe p) = some q) : agentStep p act s = .next (s.setPipe p q) := by simp [agentStep, h]

/-- An agent's step always answers the state with its pipeline replaced: by the row's result, or by itself. -/
theorem agentStep_eq (p : Pipe) (act : PipelineState → Option PipelineState) (s : State) :
    agentStep p act s = .next (s.setPipe p ((act (s.pipe p)).getD (s.pipe p))) := by
  cases h : act (s.pipe p) with
  | none => rw [agentStep_none h, Option.getD_none, State.setPipe_self]
  | some q => rw [agentStep_some h, Option.getD_some]

/-- All that an agent's step can do. -/
theorem agentStep_next {p : Pipe} {act : PipelineState → Option PipelineState} {s t : State} (h : agentStep p act s = .next t) :
    (act (s.pipe p) = none ∧ t = s) ∨ ∃ q, act (s.pipe p) = some q ∧ t = s.setPipe p q := by
  cases hq : act (s.pipe p) with
  | none => rw [agentStep_none hq] at h; cases h; exact .inl ⟨rfl, rfl⟩
  | some q => rw [agentStep_some hq] at h; cases h; exact .inr ⟨q, rfl, rfl⟩

/-! ### The stages' actions -/

/-- Where the aligner steps: an input is taken, and only the classifier changes. -/
theorem alignAction_some {q q' : PipelineState} (h : alignAction q = some q') :
    ∃ r rest c, q.qRaw = r :: rest ∧ alignTransfer r q.cls = some c ∧ q' = { q with qRaw := rest, cls := c } := by
  unfold alignAction at h
  split at h
  · cases h
  · rename_i r rest hq
    simp only [Option.map_eq_some_iff] at h
    obtain ⟨c, hc, rfl⟩ := h
    exact ⟨r, rest, c, hq, hc, rfl⟩

/-- Where the labeller steps: the head is labelled, descrambled and passed on. -/
theorem labelAction_some {par : Params} {q q' : PipelineState} (h : labelAction par q = some q') :
    ∃ x rest, q.cls.labq = x :: rest ∧ labelEnabled q.cls x = true ∧
      let l := labelHead q.cls x
      let d := descramble par.descrambleEn x l.1 q.cls.lfsr
      q' = { q with
        cls := { q.cls with labq := rest, rem := l.2.1, cur := l.2.2, lfsr := d.2 }
        qCls := q.qCls ++ [{ data := d.1, ctrl := x.ctrl, os := l.1, isOs := l.1 != .data }] } := by
  unfold labelAction at h
  split at h
  · cases h
  · rename_i x rest hq
    split at h
    · rename_i he
      exact ⟨x, rest, hq, he, (Option.some.inj h).symm⟩
    · cases h

/-- Where a writer row steps: the head of `q_cls` is taken, and only the Filter changes. -/
theorem writerAction_some {par : Params} {act : Bank → ClassifiedTransfer → FilterState → Option FilterState} {q q' : PipelineState}
    (h : writerAction par act q = some q') :
    ∃ x rest f, q.qCls = x :: rest ∧ q.flt.fifo.length < par.fifoDepth ∧ act q.bank x q.flt = some f ∧
      q' = { q with qCls := rest, flt := f } := by
  unfold writerAction at h
  split at h
  · cases h
  · rename_i x rest hq
    split at h
    · simp only [Option.map_eq_some_iff] at h
      obtain ⟨f, hf, rfl⟩ := h
      exact ⟨x, rest, f, hq, ‹_›, hf, rfl⟩
    · cases h

/-- Where a reader row steps: only the Filter changes, and what it emits goes to `q_flt`. -/
theorem readerAction_some {row : Bank → FilterState → Option ReadResult} {q q' : PipelineState} (h : readerAction row q = some q') :
    ∃ f out, row q.bank q.flt = some (f, out) ∧ q' = { q with flt := f, qFlt := q.qFlt ++ out } := by
  simp only [readerAction, Option.map_eq_some_iff] at h
  obtain ⟨⟨f, out⟩, hf, rfl⟩ := h
  exact ⟨f, out, hf, rfl⟩

/-- Where the Trigger Engine steps: the item is forwarded. -/
theorem trigAction_some {q q' : PipelineState} (h : trigAction q = some q') :
    ∃ y rest, q.qFlt = y :: rest ∧
      let r := triggerItem q.bank q.pattern y q.trg
      q' = { q with qFlt := rest, trg := r.1, qTrg := q.qTrg ++ [{ item := y, trig := r.2 }] } := by
  unfold trigAction at h
  split at h
  · cases h
  · exact ⟨_, _, ‹_›, (Option.some.inj h).symm⟩

/-- Where a tick is taken: the row is selected, the item is there, the sink takes what is written, and the tick is the state's action followed
by the synchroniser's shift. -/
theorem tickAction_some {sel : RecSt → Bool} {body : TickInput → PipelineState → PipelineState} {pf : Bool} {t : Tick}
    {q q' : PipelineState} (h : tickAction sel body pf t q = some q') :
    ∃ y q1, sel q.rcr.st = true ∧ tickItem t q = some (y, q1) ∧
      let i := tickSees y q.rcr
      (tickWrites q.rcr.st i = true → sinkReady t = true) ∧
      q' = { body i q1 with rcr := shiftForce q.rcr pf (body i q1).rcr } := by
  unfold tickAction at h
  split at h
  · cases h
  · rename_i hs
    split at h
    · cases h
    · rename_i y q1 ht
      dsimp only at h
      split at h
      · cases h
      · rename_i hw
        refine ⟨y, q1, by simpa using hs, ht, ?_, (Option.some.inj h).symm⟩
        simpa using hw

/-! ### The Recorder's write -/

@[simp] theorem writeRecord_ring (par : Params) (p : Pipe) (y : TrigOut) (tb : Bool) (q : PipelineState) :
    (writeRecord par p y tb q).ring = ringWrite q.ring q.rcr.cursor.toNat (pack y.item tb q.rcr.first) := rfl
@[simp] theorem writeRecord_cursor (par : Params) (p : Pipe) (y : TrigOut) (tb : Bool) (q : PipelineState) :
    (writeRecord par p y tb q).rcr.cursor = nextCursor par p q.rcr.cursor := rfl
@[simp] theorem writeRecord_first (par : Params) (p : Pipe) (y : TrigOut) (tb : Bool) (q : PipelineState) :
    (writeRecord par p y tb q).rcr.first = false := rfl
@[simp] theorem writeRecord_st (par : Params) (p : Pipe) (y : TrigOut) (tb : Bool) (q : PipelineState) :
    (writeRecord par p y tb q).rcr.st = q.rcr.st := rfl
@[simp] theorem writeRecord_bank (par : Params) (p : Pipe) (y : TrigOut) (tb : Bool) (q : PipelineState) :
    (writeRecord par p y tb q).bank = q.bank := rfl
@[simp] theorem writeRecord_qTrg (par : Params) (p : Pipe) (y : TrigOut) (tb : Bool) (q : PipelineState) :
    (writeRecord par p y tb q).qTrg = q.qTrg := rfl

/-- The cursor where the sum stays below the limit. -/
theorem nextCursor_of_lt {par : Params} {p : Pipe} {c : Word} (h : c.toNat + par.addrStep < par.limit p) :
    nextCursor par p c = BitVec.ofNat 32 (c.toNat + par.addrStep) := by
  simp [nextCursor, Nat.not_le.mpr h]

/-- The cursor where the sum reaches the limit. -/
theorem nextCursor_of_le {par : Params} {p : Pipe} {c : Word} (h : par.limit p ≤ c.toNat + par.addrStep) :
    nextCursor par p c = BitVec.ofNat 32 (par.base p) := by
  simp [nextCursor, h]

/-- The synchroniser's shift touches the synchroniser alone. -/
@[simp] theorem shiftForce_st (b : RecorderState) (f : Bool) (r : RecorderState) : (shiftForce b f r).st = r.st := rfl

/-! ### Commands -/

/-- START takes everything but `q_raw`, the input's held byte, the synchroniser, the bank, the pattern table and the ring (R400). -/
theorem startPipeline_kept (par : Params) (p : Pipe) (q : PipelineState) :
    let t := startPipeline par p q
    t.srcHalf = q.srcHalf ∧ t.qRaw = q.qRaw ∧ t.rcr.s1 = q.rcr.s1 ∧ t.rcr.s2 = q.rcr.s2 ∧ t.rcr.fprev = q.rcr.fprev ∧
      t.bank = q.bank ∧ t.pattern = q.pattern ∧ t.ring = q.ring := ⟨rfl, rfl, rfl, rfl, rfl, rfl, rfl, rfl⟩

end Sys2Proof.Machine
end

