-- ==== Sys2Proof/Laws/PerInstr.lean ====
section
/-! SUPPORT. One family of laws per instruction: the number that its command word carries is a number of its format. -/

namespace Sys2Proof.Laws.RowNumber

open Sys2Proof

/-- The number a command word's fields carry fits their format: a 4-aligned offset of the 4 KiB bank for a host access
(10_state.md R52), a 9-bit word for a symbol (30_encoding.md R101), a step code for a stage step; the access is 32 bits wide, and only a
host write and a Recorder tick carry a value. -/
def FieldsOk (f : CmdFields) : Prop :=
  f.width = 0 ∧ f.fmt.toNat ≤ 3 ∧
  (f.fmt.toNat ≤ 1 → f.code.toNat % 4 = 0 ∧ f.code.toNat < 0x1000) ∧
  (f.fmt.toNat = 2 → f.code.toNat < 0x200) ∧
  (f.fmt.toNat = 3 → f.code.toNat ≤ clockCode.toNat) ∧
  (f.fmt.toNat = 1 ∨ f.fmt.toNat = 2 → f.value = 0)

/-- An instruction's word carries a number of its format. -/
def Statement (i : Instr) : Prop := FieldsOk (instrFields i)

/-- A host write at a 4-aligned offset. -/
theorem write_ok (p : Pipe) (off : BitVec 12) (v : Word) (h : off.toNat % 4 = 0) : FieldsOk (writeFields p off v) := by
  have := off.isLt
  simp [FieldsOk, writeFields, BitVec.toNat_setWidth]
  omega

/-- A host read at a 4-aligned offset. -/
theorem read_ok (p : Pipe) (off : BitVec 12) (h : off.toNat % 4 = 0) : FieldsOk (readFields p off) := by
  have := off.isLt
  simp [FieldsOk, readFields, BitVec.toNat_setWidth]
  omega

/-- A symbol word. -/
theorem symbol_ok (p : Pipe) (w : BitVec 9) : FieldsOk (symbolFields p w) := by
  have := w.isLt
  simp [FieldsOk, symbolFields, BitVec.toNat_setWidth]
  omega

/-- A stage step. -/
theorem step_ok (p : Pipe) (c : BitVec 16) (v : Word) (h : c.toNat ≤ clockCode.toNat) : FieldsOk (stepFields p c v) := by
  simpa [FieldsOk, stepFields] using h

/-- A PATTERN offset is 4-aligned. -/
theorem pattern_aligned : ∀ i : Byte, (patternOffset i).toNat % 4 = 0 := by decide

theorem wrFilterEnable (p : Pipe) (v : Word) : Statement (.wrFilterEnable p v) := write_ok p _ v (by decide)
theorem wrFilterConfig (p : Pipe) (v : Word) : Statement (.wrFilterConfig p v) := write_ok p _ v (by decide)
theorem wrTlpDllpTimeout (p : Pipe) (v : Word) : Statement (.wrTlpDllpTimeout p v) := write_ok p _ v (by decide)
theorem wrTrigArmed (p : Pipe) (v : Word) : Statement (.wrTrigArmed p v) := write_ok p _ v (by decide)
theorem wrTrigSize (p : Pipe) (v : Word) : Statement (.wrTrigSize p v) := write_ok p _ v (by decide)
theorem wrRecMode (p : Pipe) (v : Word) : Statement (.wrRecMode p v) := write_ok p _ v (by decide)
theorem wrRecOffset (p : Pipe) (v : Word) : Statement (.wrRecOffset p v) := write_ok p _ v (by decide)
theorem wrRecSize (p : Pipe) (v : Word) : Statement (.wrRecSize p v) := write_ok p _ v (by decide)
theorem rdFilterEnable (p : Pipe) : Statement (.rdFilterEnable p) := read_ok p _ (by decide)
theorem rdFilterConfig (p : Pipe) : Statement (.rdFilterConfig p) := read_ok p _ (by decide)
theorem rdTlpDllpTimeout (p : Pipe) : Statement (.rdTlpDllpTimeout p) := read_ok p _ (by decide)
theorem rdTrigArmed (p : Pipe) : Statement (.rdTrigArmed p) := read_ok p _ (by decide)
theorem rdTrigSize (p : Pipe) : Statement (.rdTrigSize p) := read_ok p _ (by decide)
theorem rdRecMode (p : Pipe) : Statement (.rdRecMode p) := read_ok p _ (by decide)
theorem rdRecOffset (p : Pipe) : Statement (.rdRecOffset p) := read_ok p _ (by decide)
theorem rdRecSize (p : Pipe) : Statement (.rdRecSize p) := read_ok p _ (by decide)
theorem start (p : Pipe) (v : Word) : Statement (.start p v) := write_ok p _ v (by decide)
theorem stop (p : Pipe) (v : Word) : Statement (.stop p v) := write_ok p _ v (by decide)
theorem wrPattern (p : Pipe) (i : Byte) (v : Word) : Statement (.wrPattern p i v) := write_ok p _ v (pattern_aligned i)
theorem rdPattern (p : Pipe) (i : Byte) : Statement (.rdPattern p i) := read_ok p _ (pattern_aligned i)
theorem rdStatusTriggered (p : Pipe) : Statement (.rdStatusTriggered p) := read_ok p _ (by decide)
theorem rdStatusFinished (p : Pipe) : Statement (.rdStatusFinished p) := read_ok p _ (by decide)
theorem rdStatusTrigAddr (p : Pipe) : Statement (.rdStatusTrigAddr p) := read_ok p _ (by decide)
theorem rdStatusState (p : Pipe) : Statement (.rdStatusState p) := read_ok p _ (by decide)
theorem rdGeomBase (p : Pipe) : Statement (.rdGeomBase p) := read_ok p _ (by decide)
theorem rdGeomLength (p : Pipe) : Statement (.rdGeomLength p) := read_ok p _ (by decide)
theorem rdGeomChunk (p : Pipe) : Statement (.rdGeomChunk p) := read_ok p _ (by decide)
theorem rdGeomStep (p : Pipe) : Statement (.rdGeomStep p) := read_ok p _ (by decide)
theorem rdRecStart (p : Pipe) : Statement (.rdRecStart p) := read_ok p _ (by decide)
theorem rdRecStop (p : Pipe) : Statement (.rdRecStop p) := read_ok p _ (by decide)
theorem wrStatusTriggered (p : Pipe) (v : Word) : Statement (.wrStatusTriggered p v) := write_ok p _ v (by decide)
theorem wrStatusFinished (p : Pipe) (v : Word) : Statement (.wrStatusFinished p v) := write_ok p _ v (by decide)
theorem wrStatusTrigAddr (p : Pipe) (v : Word) : Statement (.wrStatusTrigAddr p v) := write_ok p _ v (by decide)
theorem wrStatusState (p : Pipe) (v : Word) : Statement (.wrStatusState p v) := write_ok p _ v (by decide)
theorem wrGeomBase (p : Pipe) (v : Word) : Statement (.wrGeomBase p v) := write_ok p _ v (by decide)
theorem wrGeomLength (p : Pipe) (v : Word) : Statement (.wrGeomLength p v) := write_ok p _ v (by decide)
theorem wrGeomChunk (p : Pipe) (v : Word) : Statement (.wrGeomChunk p v) := write_ok p _ v (by decide)
theorem wrGeomStep (p : Pipe) (v : Word) : Statement (.wrGeomStep p v) := write_ok p _ v (by decide)
theorem com (p : Pipe) : Statement (.com p) := symbol_ok p _
theorem skp (p : Pipe) : Statement (.skp p) := symbol_ok p _
theorem fts (p : Pipe) : Statement (.fts p) := symbol_ok p _
theorem idl (p : Pipe) : Statement (.idl p) := symbol_ok p _
theorem stp (p : Pipe) : Statement (.stp p) := symbol_ok p _
theorem sdp (p : Pipe) : Statement (.sdp p) := symbol_ok p _
theorem endSym (p : Pipe) : Statement (.endSym p) := symbol_ok p _
theorem d215 (p : Pipe) : Statement (.d215 p) := symbol_ok p _
theorem d102 (p : Pipe) : Statement (.d102 p) := symbol_ok p _
theorem d52 (p : Pipe) : Statement (.d52 p) := symbol_ok p _
theorem kOther (p : Pipe) (v : Byte) : Statement (.kOther p v) := symbol_ok p _
theorem dOther (p : Pipe) (v : Byte) : Statement (.dOther p v) := symbol_ok p _
theorem align (p : Pipe) : Statement (.align p) := step_ok p _ _ (by decide)
theorem label (p : Pipe) : Statement (.label p) := step_ok p _ _ (by decide)
theorem filtWriteFind (p : Pipe) : Statement (.filtWriteFind p) := step_ok p _ _ (by decide)
theorem filtWriteOsbody (p : Pipe) : Statement (.filtWriteOsbody p) := step_ok p _ _ (by decide)
theorem filtWritePkt (p : Pipe) : Statement (.filtWritePkt p) := step_ok p _ _ (by decide)
theorem filtWritePass (p : Pipe) : Statement (.filtWritePass p) := step_ok p _ _ (by decide)
theorem filtReadPass (p : Pipe) : Statement (.filtReadPass p) := step_ok p _ _ (by decide)
theorem filtReadSelect (p : Pipe) : Statement (.filtReadSelect p) := step_ok p _ _ (by decide)
theorem filtReadTsins (p : Pipe) : Statement (.filtReadTsins p) := step_ok p _ _ (by decide)
theorem filtReadDrain (p : Pipe) : Statement (.filtReadDrain p) := step_ok p _ _ (by decide)
theorem trig (p : Pipe) : Statement (.trig p) := step_ok p _ _ (by decide)
theorem recTickIdle (p : Pipe) (t : Tick) : Statement (.recTickIdle p t) := step_ok p _ _ (by decide)
theorem recTickPre (p : Pipe) (t : Tick) : Statement (.recTickPre p t) := step_ok p _ _ (by decide)
theorem recTickWait (p : Pipe) (t : Tick) : Statement (.recTickWait p t) := step_ok p _ _ (by decide)
theorem recTickPost (p : Pipe) (t : Tick) : Statement (.recTickPost p t) := step_ok p _ _ (by decide)
theorem recTickDoneAbort (p : Pipe) (t : Tick) : Statement (.recTickDoneAbort p t) := step_ok p _ _ (by decide)
theorem recTickForced (p : Pipe) (t : Tick) : Statement (.recTickForced p t) := step_ok p _ _ (by decide)
theorem clock : Statement .clock := step_ok .rx _ _ (by decide)

end Sys2Proof.Laws.RowNumber
end

