-- ==== Sys2Proof/Laws/Runs.lean ====
section
/-! SUPPORT. Runs and what may step in them. -/

namespace Sys2Proof.Machine

open Sys2Proof.Config Host

/-- A command that schedules an agent runs the row its state selects. -/
theorem Schedules.runCommand_eq {c : Command} {s : State} {p : Pipe} {a : Agent} (h : Schedules c s p a) :
    runCommand c s = exec (selectRow p a s) s := by
  rcases h with rfl | rfl <;> rfl

/-- A writer row needs an item and room (41_filter.md R200). -/
theorem writerAction_of_not_enabled {par : Params} {act : Bank → ClassifiedTransfer → FilterState → Option FilterState}
    {q : PipelineState} (h : (!q.qCls.isEmpty && decide (q.flt.fifo.length < par.fifoDepth)) = false) :
    writerAction par act q = none := by
  cases hq : writerAction par act q with
  | none => rfl
  | some r => obtain ⟨x, rest, f, h1, h2, _, _⟩ := writerAction_some hq; simp [h1, h2] at h

/-- A tick needs its item, and the sink where it writes (43_recorder.md R300, R314). -/
theorem tickAction_of_not_enabled {sel : RecSt → Bool} {body : TickInput → PipelineState → PipelineState} {pf : Bool} {t : Tick}
    {q : PipelineState} (h : ((tickItem t q).isSome && (!tickStores t q || sinkReady t)) = false) :
    tickAction sel body pf t q = none := by
  cases hq : tickAction sel body pf t q with
  | none => rfl
  | some r =>
    obtain ⟨y, q1, _, hi, hw, _⟩ := tickAction_some hq
    simp only [tickStores, hi, Option.isSome_some, Bool.true_and, Bool.or_eq_false_iff, Bool.not_eq_false'] at h
    exact absurd (hw h.1) (by simp [h.2])

/-- The state of an agent that is not enabled selects a row whose meaning leaves the state as it was: the agent does not step. -/
theorem exec_selectRow_of_not_enabled {p : Pipe} {a : Agent} {s : State} (h : agentEnabled p a s = false) :
    exec (selectRow p a s) s = .next s := by
  cases a with
  | aligner => exact agentStep_none (by simp_all [agentEnabled, alignAction])
  | labeller =>
    refine agentStep_none ?_
    simp only [agentEnabled] at h
    unfold labelAction
    split <;> simp_all
  | writer =>
    have hw := fun act => writerAction_of_not_enabled (act := act) (par := s.par) (q := s.pipe p) h
    simp only [selectRow, writerRow]
    split
    · exact agentStep_none (hw _)
    · split <;> exact agentStep_none (hw _)
  | reader =>
    simp only [agentEnabled, readerEnabled] at h
    simp only [selectRow, readerRow]
    split <;> rename_i hr <;> refine agentStep_none ?_ <;> simp_all [readerAction, readPass, readSelect, readDrain]
  | trigger => exact agentStep_none (by simp_all [agentEnabled, trigAction])
  | recorder t =>
    have ht := fun sel body pf => tickAction_of_not_enabled (sel := sel) (body := body) (pf := pf) (q := s.pipe p) (t := t) h
    simp only [selectRow, recorderRow]
    split <;> exact agentStep_none (ht _ _ _)

end Sys2Proof.Machine
end

