-- ==== Sys2Proof/Tests/Slice0.lean ====
section
/-! SUPPORT. The model's own tests: the checks of WellFormed, every row's word, single steps from the spec's worked examples, and for each
obligation with hypotheses a state and operands that meet them. -/

namespace Sys2Proof.Tests

open Sys2Proof Sys2Proof.Machine Sys2Proof.Config

/-! ### Well-formedness refuses each ill-formed term (30_encoding.md R113, 10_state.md R52) -/

theorem test_kOther_refuses_named_control :
    ∀ v ∈ [0xBC, 0x1C, 0x3C, 0x7C, 0xFB, 0x5C, 0xFD], (Instr.kOther .rx (BitVec.ofNat 8 v)).wellFormed = false := by decide

theorem test_dOther_refuses_named_data : ∀ v ∈ [0xB5, 0x4A, 0x45], (Instr.dOther .tx (BitVec.ofNat 8 v)).wellFormed = false := by decide

theorem test_other_bytes_are_well_formed :
    (Instr.kOther .rx 0x42).wellFormed = true ∧ (Instr.dOther .rx 0xBC).wellFormed = true := by decide

theorem test_reserved_accesses_refuse_registers : ∀ n ∈ [0x000, 0x044, 0x400, 0x7FC, 0x049, 0x3FE, 0x802],
    (Command.reservedRead .rx (BitVec.ofNat 12 n)).wellFormed = false ∧ (Command.reservedWrite .rx (BitVec.ofNat 12 n) 0).wellFormed = false := by decide

theorem test_reserved_accesses_at_their_bounds : ∀ n ∈ [0x048, 0x3FC, 0x800, 0xFFC],
    (Command.reservedRead .tx (BitVec.ofNat 12 n)).wellFormed = true ∧ (Command.reservedWrite .tx (BitVec.ofNat 12 n) 5).wellFormed = true := by decide

/-! ### Decoding: each row's word, its number from the table, its fields as Decode.lean lays them out

The hexadecimal digits, from the left: bits [55:48] `fmt`, `pipe` and `width` (00 WR, 08 RD, 10 SYM9, 18 STEP, 20 AGENT at RX; plus 04 at
TX), then eight digits of `value`, then four of `code`. -/

theorem test_decode_wrFilterEnable : decode 0x00000000010000 = .ok (.instr (.wrFilterEnable .rx 0x1)) := by decide
theorem test_decode_wrFilterConfig : decode 0x048000003F0004 = .ok (.instr (.wrFilterConfig .tx 0x8000003F)) := by decide
theorem test_decode_wrTlpDllpTimeout : decode 0x00FFFFFFFF0008 = .ok (.instr (.wrTlpDllpTimeout .rx 0xFFFFFFFF)) := by decide
theorem test_decode_wrTrigArmed : decode 0x0400000001000C = .ok (.instr (.wrTrigArmed .tx 0x1)) := by decide
theorem test_decode_wrTrigSize : decode 0x008000003F0010 = .ok (.instr (.wrTrigSize .rx 0x8000003F)) := by decide
theorem test_decode_wrRecMode : decode 0x04FFFFFFFF0014 = .ok (.instr (.wrRecMode .tx 0xFFFFFFFF)) := by decide
theorem test_decode_wrRecOffset : decode 0x00000000010018 = .ok (.instr (.wrRecOffset .rx 0x1)) := by decide
theorem test_decode_wrRecSize : decode 0x048000003F001C = .ok (.instr (.wrRecSize .tx 0x8000003F)) := by decide
theorem test_decode_start : decode 0x00FFFFFFFF0020 = .ok (.instr (.start .rx 0xFFFFFFFF)) := by decide
theorem test_decode_stop : decode 0x04000000010024 = .ok (.instr (.stop .tx 0x1)) := by decide
theorem test_decode_wrStatusTriggered : decode 0x008000003F0028 = .ok (.instr (.wrStatusTriggered .rx 0x8000003F)) := by decide
theorem test_decode_wrStatusFinished : decode 0x04FFFFFFFF002C = .ok (.instr (.wrStatusFinished .tx 0xFFFFFFFF)) := by decide
theorem test_decode_wrStatusTrigAddr : decode 0x00000000010030 = .ok (.instr (.wrStatusTrigAddr .rx 0x1)) := by decide
theorem test_decode_wrStatusState : decode 0x048000003F0034 = .ok (.instr (.wrStatusState .tx 0x8000003F)) := by decide
theorem test_decode_wrGeomBase : decode 0x00FFFFFFFF0038 = .ok (.instr (.wrGeomBase .rx 0xFFFFFFFF)) := by decide
theorem test_decode_wrGeomLength : decode 0x0400000001003C = .ok (.instr (.wrGeomLength .tx 0x1)) := by decide
theorem test_decode_wrGeomChunk : decode 0x008000003F0040 = .ok (.instr (.wrGeomChunk .rx 0x8000003F)) := by decide
theorem test_decode_wrGeomStep : decode 0x04FFFFFFFF0044 = .ok (.instr (.wrGeomStep .tx 0xFFFFFFFF)) := by decide
theorem test_decode_wrPattern : decode 0x00000002BC07FC = .ok (.instr (.wrPattern .rx 255 0x2BC)) := by decide
theorem test_decode_rdFilterEnable : decode 0x08000000000000 = .ok (.instr (.rdFilterEnable .rx)) := by decide
theorem test_decode_rdFilterConfig : decode 0x0C000000000004 = .ok (.instr (.rdFilterConfig .tx)) := by decide
theorem test_decode_rdTlpDllpTimeout : decode 0x08000000000008 = .ok (.instr (.rdTlpDllpTimeout .rx)) := by decide
theorem test_decode_rdTrigArmed : decode 0x0C00000000000C = .ok (.instr (.rdTrigArmed .tx)) := by decide
theorem test_decode_rdTrigSize : decode 0x08000000000010 = .ok (.instr (.rdTrigSize .rx)) := by decide
theorem test_decode_rdRecMode : decode 0x0C000000000014 = .ok (.instr (.rdRecMode .tx)) := by decide
theorem test_decode_rdRecOffset : decode 0x08000000000018 = .ok (.instr (.rdRecOffset .rx)) := by decide
theorem test_decode_rdRecSize : decode 0x0C00000000001C = .ok (.instr (.rdRecSize .tx)) := by decide
theorem test_decode_rdRecStart : decode 0x08000000000020 = .ok (.instr (.rdRecStart .rx)) := by decide
theorem test_decode_rdRecStop : decode 0x0C000000000024 = .ok (.instr (.rdRecStop .tx)) := by decide
theorem test_decode_rdStatusTriggered : decode 0x08000000000028 = .ok (.instr (.rdStatusTriggered .rx)) := by decide
theorem test_decode_rdStatusFinished : decode 0x0C00000000002C = .ok (.instr (.rdStatusFinished .tx)) := by decide
theorem test_decode_rdStatusTrigAddr : decode 0x08000000000030 = .ok (.instr (.rdStatusTrigAddr .rx)) := by decide
theorem test_decode_rdStatusState : decode 0x0C000000000034 = .ok (.instr (.rdStatusState .tx)) := by decide
theorem test_decode_rdGeomBase : decode 0x08000000000038 = .ok (.instr (.rdGeomBase .rx)) := by decide
theorem test_decode_rdGeomLength : decode 0x0C00000000003C = .ok (.instr (.rdGeomLength .tx)) := by decide
theorem test_decode_rdGeomChunk : decode 0x08000000000040 = .ok (.instr (.rdGeomChunk .rx)) := by decide
theorem test_decode_rdGeomStep : decode 0x0C000000000044 = .ok (.instr (.rdGeomStep .tx)) := by decide
theorem test_decode_rdPattern : decode 0x0C000000000404 = .ok (.instr (.rdPattern .tx 1)) := by decide
theorem test_decode_com : decode 0x100000000001BC = .ok (.instr (.com .rx)) := by decide
theorem test_decode_skp : decode 0x1400000000011C = .ok (.instr (.skp .tx)) := by decide
theorem test_decode_fts : decode 0x1000000000013C = .ok (.instr (.fts .rx)) := by decide
theorem test_decode_idl : decode 0x1400000000017C = .ok (.instr (.idl .tx)) := by decide
theorem test_decode_stp : decode 0x100000000001FB = .ok (.instr (.stp .rx)) := by decide
theorem test_decode_sdp : decode 0x1400000000015C = .ok (.instr (.sdp .tx)) := by decide
theorem test_decode_endSym : decode 0x100000000001FD = .ok (.instr (.endSym .rx)) := by decide
theorem test_decode_d215 : decode 0x140000000000B5 = .ok (.instr (.d215 .tx)) := by decide
theorem test_decode_d102 : decode 0x1000000000004A = .ok (.instr (.d102 .rx)) := by decide
theorem test_decode_d52 : decode 0x14000000000045 = .ok (.instr (.d52 .tx)) := by decide
theorem test_decode_kOther : decode 0x100000000001F7 = .ok (.instr (.kOther .rx 0xF7)) := by decide
theorem test_decode_dOther : decode 0x140000000000BC = .ok (.instr (.dOther .tx 0xBC)) := by decide
theorem test_decode_align : decode 0x18000000000000 = .ok (.instr (.align .rx)) := by decide
theorem test_decode_label : decode 0x1C000000000001 = .ok (.instr (.label .tx)) := by decide
theorem test_decode_filtWriteFind : decode 0x18000000000002 = .ok (.instr (.filtWriteFind .rx)) := by decide
theorem test_decode_filtWriteOsbody : decode 0x1C000000000003 = .ok (.instr (.filtWriteOsbody .tx)) := by decide
theorem test_decode_filtWritePkt : decode 0x18000000000004 = .ok (.instr (.filtWritePkt .rx)) := by decide
theorem test_decode_filtWritePass : decode 0x1C000000000005 = .ok (.instr (.filtWritePass .tx)) := by decide
theorem test_decode_filtReadPass : decode 0x18000000000006 = .ok (.instr (.filtReadPass .rx)) := by decide
theorem test_decode_filtReadSelect : decode 0x1C000000000007 = .ok (.instr (.filtReadSelect .tx)) := by decide
theorem test_decode_filtReadTsins : decode 0x18000000000008 = .ok (.instr (.filtReadTsins .rx)) := by decide
theorem test_decode_filtReadDrain : decode 0x1C000000000009 = .ok (.instr (.filtReadDrain .tx)) := by decide
theorem test_decode_trig : decode 0x1800000000000A = .ok (.instr (.trig .rx)) := by decide
theorem test_decode_recTickIdle : decode 0x1800000000000B = .ok (.instr (.recTickIdle .rx .idle)) := by decide
theorem test_decode_recTickPre : decode 0x1C00000001000C = .ok (.instr (.recTickPre .tx (.item false))) := by decide
theorem test_decode_recTickWait : decode 0x1800000003000D = .ok (.instr (.recTickWait .rx (.item true))) := by decide
theorem test_decode_recTickPost : decode 0x1C00000000000E = .ok (.instr (.recTickPost .tx .idle)) := by decide
theorem test_decode_recTickDoneAbort : decode 0x1800000001000F = .ok (.instr (.recTickDoneAbort .rx (.item false))) := by decide
theorem test_decode_recTickForced : decode 0x1C000000030010 = .ok (.instr (.recTickForced .tx (.item true))) := by decide
theorem test_decode_clock : decode 0x18000000000011 = .ok (.instr .clock) := by decide

/-- Agents' words and reserved accesses (log 2, log 13). -/
theorem test_decode_other_commands :
    decode 0x20000000000002 = .ok (.agent .rx .writer) ∧ decode 0x24000000030005 = .ok (.agent .tx (.recorder (.item true))) ∧
    decode 0x08000000000048 = .ok (.reservedRead .rx 0x048) ∧ decode 0x04000000070FFC = .ok (.reservedWrite .tx 0xFFC 7) := by decide

/-- Each refusal of the decoder, by name. -/
theorem test_decode_refuses :
    decode 0x01000000000000 = .error .not32Bit ∧ decode 0x00000000000002 = .error .unaligned ∧
    decode 0x00000000001000 = .error .offsetOutOfBank ∧ decode 0x10000000000200 = .error .unknownSymbol ∧
    decode 0x18000000000012 = .error .unknownStep ∧ decode 0x20000000000006 = .error .unknownAgent ∧
    decode 0x28000000000000 = .error .unknownFormat ∧ decode 0x10000000010000 = .error .strayBits ∧
    decode 0x18000000020000 = .error .strayBits ∧ decode 0x1C000000000011 = .error .strayBits := by decide

/-- The table's own numbers (log 3). -/
theorem test_table_words :
    decodeTableWord 16 0x018 = some (.wrRecOffset .rx 0) ∧ decodeTableWord 16 0x404 = some (.wrPattern .rx 1 0) ∧
    decodeTableWord 16 0x1BC = some (.com .rx) ∧ decodeTableWord 16 0x1F7 = some (.kOther .rx 0xF7) ∧
    decodeTableWord 8 0 = some (.align .rx) := by decide

/-! ### Helpers: a state whose RX pipeline is the reset one, changed; and what a step's next state shows -/

/-- The reset state of an instance with MEM_SIZE 16. -/
def small : State := State.resetWith { Params.default with memSize := 16 }

/-- `small` with RX changed. -/
def rxWith (f : PipelineState → PipelineState) : State := small.setPipe .rx (f (small.pipe .rx))

/-- Whether an outcome is a next state with a property. -/
def nextHas (o : Host.Outcome State Fault Refusal) (f : State → Bool) : Bool :=
  match o with
  | .next t => f t
  | _ => false

/-- A raw or aligned transfer. -/
def xf (data : BitVec 16) (ctrl : BitVec 2) : Xfer := ⟨data, ctrl⟩

/-- A classified transfer. -/
def ct (data : BitVec 16) (ctrl : BitVec 2) (os : OsType := .data) : ClassifiedTransfer := ⟨data, ctrl, os, os != .data⟩

/-- A FIFO item. -/
def fi (data : BitVec 16) (ctrl : BitVec 2) (k : FrameKind) (sof eof err : Bool) (ts : Word) : FifoItem := ⟨data, ctrl, k, sof, eof, err, ts⟩

/-- A Filter output item that is no timestamp and has no flag. -/
def fo (data : BitVec 16) (ctrl : BitVec 2) (ts : Bool := false) : FiltOut := ⟨data, ctrl, .none, ts, false, false, false⟩

/-- RX with a classifier, filter, engine or Recorder changed. -/
def withCls (f : ClassifierState → ClassifierState) : State := rxWith fun q => { q with cls := f q.cls }
def withFlt (fe : Bool) (xs : List ClassifiedTransfer) (f : FilterState → FilterState) : State :=
  rxWith fun q => { q with qCls := xs, flt := f q.flt, bank := { q.bank with filterEnable := fe, timeout := 3, filterConfig := 0x3F } }
def withTrg (armed : Bool) (size : BitVec 9) (ys : List FiltOut) (f : TriggerState → TriggerState) : State :=
  rxWith fun q => { q with
    qFlt := ys, trg := f q.trg, bank := { q.bank with trigArmed := armed, trigSize := size }
    pattern := [⟨0xBC, false, true, false⟩, ⟨0x1C, false, true, false⟩] ++ q.pattern.drop 2 }
def withRec (st : RecSt) (ys : List TrigOut) (f : RecorderState → RecorderState := id) : State :=
  rxWith fun q => { q with
    qTrg := ys, rcr := { f q.rcr with st := st }, bank := { q.bank with recOffset := 2, recSize := 2 } }

/-! ### Single steps: the spec's worked examples (the rule in each comment) -/

/-- 45_host.md R391: writing 0x3 stores 1. -/
theorem test_wrFilterEnable : nextHas (exec (.wrFilterEnable .rx 3) .reset) (fun t => t.rx.bank.filterEnable) = true := by decide

/-- R392: `v = 0x10` passes TLP frames only. -/
theorem test_wrFilterConfig : nextHas (exec (.wrFilterConfig .rx 0x10) .reset)
    (fun t => kindEnabled t.rx.bank.filterConfig .tlp && !kindEnabled t.rx.bank.filterConfig .dllp) = true := by decide

/-- R395: 257 is refused where MEM_SIZE is 256, 256 is stored. -/
theorem test_wrTrigSize : exec (.wrTrigSize .rx 257) State.reset = .refused .trigSizeAboveMemSize := rfl
theorem test_wrTrigSize_bound : nextHas (exec (.wrTrigSize .rx 256) .reset) (fun t => t.rx.bank.trigSize == 256) = true := by decide

/-- R396: `v = 1` selects FRAME. -/
theorem test_wrRecMode : nextHas (exec (.wrRecMode .tx 1) .reset) (fun t => t.tx.bank.recMode == .frame) = true := by decide

/-- R400: `wr REC_OFFSET = 0x200; start` gives FILL_PRE_TRIG. -/
theorem test_start : nextHas (andThen (exec (.wrRecOffset .rx 0x200) .reset) (exec (.start .rx 1)))
    (fun t => t.rx.rcr.st == .fillPreTrig && t.rx.rcr.cursor == 0) = true := by decide

/-- R401: in WAIT_TRIGGER, `stop` gives ABORT. -/
theorem test_stop : nextHas (exec (.stop .rx 1) (withRec .waitTrigger [])) (fun t => t.rx.rcr.st == .abort) = true := by decide

/-- R402, R403: `v = 0x2BC` stores K(0xBC) and reads back. -/
theorem test_wrPattern : nextHas (andThen (exec (.wrPattern .rx 0 0x2BC) small) (exec (.rdPattern .rx 0)))
    (fun t => t.hostRd == 0x2BC && t.rx.pattern.head? == some ⟨0xBC, false, true, false⟩) = true := by decide

/-- R407: after `stop` in WAIT_TRIGGER, STATUS_STATE reads 5. -/
theorem test_rdStatusState : nextHas (exec (.rdStatusState .rx) (withRec .abort [])) (fun t => t.hostRd == 5) = true := by decide

/-- R408: GEOM_CHUNK is RECORD_BITS. -/
theorem test_rdGeomChunk : nextHas (exec (.rdGeomChunk .rx) .reset) (fun t => t.hostRd == 32) = true := by decide

/-- R362, R11: the first symbol of a pair is lane 0. -/
theorem test_symbols_fill_lanes : nextHas (andThen (exec (.com .rx) .reset) (exec (.dOther .rx 0x12)))
    (fun t => t.rx.qRaw == [xf 0xBC12 0b10]) = true := by decide

/-- 40_classifier.md R150: raw `[00 BC*] [1C* 1C*] [1C* 00]` gives `[BC* 1C*] [1C* 1C*]`, phase 1, pend D(0x00). -/
theorem test_align : nextHas (runAgent .rx .aligner 3 (rxWith fun q => { q with qRaw := [xf 0x00BC 0b01, xf 0x1C1C 0b11, xf 0x1C00 0b10] }))
    (fun t => t.rx.cls.labq == [xf 0xBC1C 0b11, xf 0x1C1C 0b11] && t.rx.cls.phase && t.rx.cls.pend == some (dat 0)) = true := by decide

/-- R155: `[BC* 1C*] [1C* 1C*]` gives two SKIP transfers. -/
theorem test_label : nextHas (runAgent .rx .labeller 2 (withCls fun c => { c with labq := [xf 0xBC1C 0b11, xf 0x1C1C 0b11] }))
    (fun t => t.rx.qCls == [ct 0xBC1C 0b11 .skip, ct 0x1C1C 0b11 .skip]) = true := by decide

/-- R158: after a COM the keys are FF 17 C0. -/
theorem test_descramble : descramble true (xf 0xBCFF 0b10) .data 0x1234 = (0xBC00, 0xE817) ∧
    (descramble true (xf 0x17C0 0b00) .data 0xE817).1 = 0x0000 := by decide

/-- 41_filter.md R201: a lane-0 STP opens a TLP stamped with the clock. -/
theorem test_filtWriteFind : nextHas
    (exec (.filtWriteFind .rx) { (withFlt true [ct 0xFB01 0b10] fun f => { f with w := .find }) with clock := 5 })
    (fun t => t.rx.flt.fifo == [fi 0xFB01 0b10 .tlp true false false 5] && t.rx.flt.w == .pkt .tlp 0) = true := by decide

/-- R203: the last item of a SKIP set has `eof`. -/
theorem test_filtWriteOsbody : nextHas (exec (.filtWriteOsbody .rx) (withFlt true [ct 0x1C1C 0b11 .skip] fun f => { f with w := .os 1 .skip }))
    (fun t => t.rx.flt.fifo == [fi 0x1C1C 0b11 .skip false true false 0] && t.rx.flt.w == .find) = true := by decide

/-- R205: with T = 3, an END at count 3 is a normal end, and the item at count 4 is flagged. -/
theorem test_filtWritePkt_end : nextHas (exec (.filtWritePkt .rx) (withFlt true [ct 0x06FD 0b01] fun f => { f with w := .pkt .tlp 2 }))
    (fun t => t.rx.flt.fifo == [fi 0x06FD 0b01 .tlp false true false 0]) = true := by decide
theorem test_filtWritePkt_timeout : nextHas (exec (.filtWritePkt .rx) (withFlt true [ct 0xFD00 0b10] fun f => { f with w := .pkt .tlp 3 }))
    (fun t => t.rx.flt.fifo == [fi 0xFD00 0b10 .tlp false true true 0] && t.rx.flt.w == .find) = true := by decide

/-- R200: a disabled Filter admits with kind NONE. -/
theorem test_filtWritePass : nextHas (exec (.filtWritePass .rx) (withFlt false [ct 0xBC1C 0b11 .skip] id))
    (fun t => t.rx.flt.fifo == [fi 0xBC1C 0b11 .none false false false 0]) = true := by decide

/-- R207: an enabled Filter takes the reader out of R_NO_FILTER. -/
theorem test_filtReadPass : nextHas (exec (.filtReadPass .rx) (withFlt true [] id)) (fun t => t.rx.flt.r == .filter) = true := by decide

/-- R209: a frame with the last timestamp is forwarded without one. -/
theorem test_filtReadSelect : nextHas (exec (.filtReadSelect .rx) (withFlt true [] fun f => { f with
      r := .filter, tsValid := true, lastTs := 5, fifo := [fi 0xFB01 0b10 .tlp true false false 5] }))
    (fun t => t.rx.flt.r == .read .tlp true false) = true := by decide

/-- R210: ts = 0x00012345 emits 0x0001, then 0x2345. -/
theorem test_filtReadTsins : nextHas (runAgent .rx .reader 2 (withFlt true [] fun f => { f with r := .tsi .hi 0x00012345 .tlp }))
    (fun t => t.rx.qFlt.map (fun y => y.data) == [0x0001, 0x2345]) = true := by decide

/-- R211: an item with `eof` is emitted and ends the frame. -/
theorem test_filtReadDrain : nextHas (exec (.filtReadDrain .rx) (withFlt true [] fun f => { f with
      r := .read .tlp true true, fifo := [fi 0x02FD 0b01 .tlp false true false 0] }))
    (fun t => t.rx.flt.r == .filter && t.rx.flt.fifo == [] && t.rx.qFlt.length == 1) = true := by decide

/-- 42_trigger.md R264: `[00 00] [BC* 1C*] [AA 00]` fires on `[BC* 1C*]`. -/
theorem test_trig : nextHas (runAgent .rx .trigger 3 (withTrg true 2 [fo 0x0000 0, fo 0xBC1C 0b11, fo 0xAA00 0] id))
    (fun t => t.rx.qTrg.map (fun y => y.trig) == [false, true, false] && triggered t.rx.trg) = true := by decide

/-- 43_recorder.md R305: an idle Recorder drops its item. -/
theorem test_recTickIdle : nextHas (exec (.recTickIdle .rx (.item false)) (withRec .idle [⟨fo 1 0, true⟩]))
    (fun t => t.rx.ring == [] && t.rx.qTrg == []) = true := by decide

/-- R306: with OFFSET 2 the second item enters WAIT_TRIGGER. -/
theorem test_recTickPre : nextHas (runAgent .rx (.recorder (.item true)) 2 (withRec .fillPreTrig [⟨fo 1 0, false⟩, ⟨fo 2 0, true⟩]))
    (fun t => t.rx.rcr.st == .waitTrigger && t.rx.ring == [(0, pack (fo 1 0) false true), (1, pack (fo 2 0) false false)]) = true := by
  decide

/-- R300: an item with `trig = 1` sets `trigAddr` to the cursor and its record has TRIG = 1. -/
theorem test_recTickWait : nextHas (exec (.recTickWait .rx (.item true)) (withRec .waitTrigger [⟨fo 7 0, true⟩] fun r => { r with cursor := 0x20 }))
    (fun t => t.rx.rcr.trigAddr == 0x20 && t.rx.rcr.st == .fillPostTrig && t.rx.ring == [(0x20, pack (fo 7 0) true true)]) = true := by
  decide

/-- R308: the item that reaches SIZE ends the capture. -/
theorem test_recTickPost : nextHas (exec (.recTickPost .rx (.item true)) (withRec .fillPostTrig [⟨fo 9 0, true⟩] fun r => { r with postCnt := 1 }))
    (fun t => t.rx.rcr.st == .done && t.rx.rcr.postCnt == 2) = true := by decide

/-- R309: in DONE, an item with `trig = 1` is discarded. -/
theorem test_recTickDoneAbort : nextHas (exec (.recTickDoneAbort .rx (.item true)) (withRec .done [⟨fo 9 0, true⟩]))
    (fun t => t.rx.ring == [] && t.rx.qTrg == []) = true := by decide

/-- R310: with the wire low a forced capture is DONE. -/
theorem test_recTickForced : nextHas (exec (.recTickForced .rx .idle) (withRec .forced [])) (fun t => t.rx.rcr.st == .done) = true := by decide

/-- 44_pipeline.md R367: the clock wraps. -/
theorem test_clock : nextHas (exec .clock { State.reset with clock := 0xFFFFFFFF }) (fun t => t.clock == 0) = true := by decide

/-- R304: `BASE = 0x100`, `LENGTH = 0x100` (TX): `next(0x1FF) = 0x100`. -/
theorem test_nextCursor : nextCursor Params.default .tx 0x1FF = 0x100 ∧ nextCursor Params.default .tx 0x107 = 0x108 := by decide

/-- The step fetches and runs a table row's number as the first command after reset. -/
theorem test_step_runs_first_word : nextHas (step (State.reset.withFetchWord 16 0x1BC)) (fun t => t.rx.srcHalf == some (ctl 0xBC)) = true := by
  decide


/-! ### States and operands that meet the hypotheses of the obligations, each clause at a boundary -/

/-- A state with given commands scheduled. -/
def withSched (l : List CmdWord) (s : State := small) : State := { s with sched := l }

theorem witness_StepRunsTheDecodedInstruction :
    let s := withSched [encode (.kOther .rx 0xF7), 0]
    s.par.Valid ∧ s.sched = encode (.kOther .rx 0xF7) :: [0] ∧ decode (encode (.kOther .rx 0xF7)) = .ok (.instr (.kOther .rx 0xF7)) ∧
    (Instr.kOther .rx 0xF7).wellFormed = true := by decide

theorem witness_AgentStepRunsTheRowItsStateSelects :
    (∀ a ∈ [Agent.aligner, .labeller, .writer, .reader, .trigger, .recorder .idle, .recorder (.item true)],
      let s := withSched [encodeCommand (.agent .rx a)]
      s.par.Valid ∧ s.sched = encodeCommand (.agent .rx a) :: [] ∧ decode (encodeCommand (.agent .rx a)) = .ok (.agent .rx a)) ∧
    (withFlt false [] id).rx.bank.filterEnable = false ∧ (withFlt true [] id).rx.bank.filterEnable = true ∧
    (∀ w ∈ [WState.noFilter, .find, .os 1 .skip, .pkt .tlp 0], (withFlt true [] fun f => { f with w := w }).rx.flt.w = w) ∧
    (∀ r ∈ [RState.noFilter, .filter, .tsi .lo 0 .tlp, .read .tlp true false], (withFlt true [] fun f => { f with r := r }).rx.flt.r = r) ∧
    (∀ st ∈ [RecSt.idle, .fillPreTrig, .waitTrigger, .fillPostTrig, .done, .abort, .forced], (withRec st []).rx.rcr.st = st) := by decide

theorem witness_BadHostAccessesAreRefused :
    (∀ f ∈ [(⟨0, 0, 1, false, 0⟩ : CmdFields), ⟨0x44, 5, 3, true, 0⟩, ⟨2, 0, 1, false, 1⟩],
      (withSched [f.toWord]).par.Valid ∧ (withSched [f.toWord]).sched = f.toWord :: [] ∧ (f.fmt = 0 ∨ f.fmt = 1 ∧ f.value = 0) ∧ f.width ≠ 0) ∧
    (∀ f ∈ [(⟨1, 0, 0, false, 0⟩ : CmdFields), ⟨0xFFF, 5, 0, true, 0⟩, ⟨2, 0, 0, false, 1⟩],
      (withSched [f.toWord]).par.Valid ∧ (f.fmt = 0 ∨ f.fmt = 1 ∧ f.value = 0) ∧ f.width = 0 ∧ f.code.toNat % 4 ≠ 0) ∧
    State.reset.par.memSize < (257 : Word).toNat ∧
    ¬ (State.resetWith { Params.default with memSize := 257 }).par.Valid := by decide

theorem witness_DecodeInvertsEncode :
    (∀ i ∈ [Instr.wrPattern .tx 255 0xFFFFFFFF, .rdPattern .rx 0, .kOther .rx 0xFF, .dOther .tx 0xBC, .recTickForced .tx (.item true), .clock],
      i.wellFormed = true) ∧
    (∀ c ∈ [Command.agent .tx (.recorder (.item false)), .reservedRead .rx 0x048, .reservedWrite .tx 0xFFC 1, .reservedRead .tx 0x800],
      c.wellFormed = true) := by decide

theorem witness_DecodedWordIsTheCommandsEncoding : decode 0x1C000000030010 = .ok (.instr (.recTickForced .tx (.item true))) := by decide

/-- An instance whose rings end at the top of the address space, TX first. -/
def topParams : Params :=
  { Params.default with memSize := 16, fifoDepth := 1, addrStep := 4, baseTx := 0xFFFFFFE0, lengthTx := 0x10, baseRx := 0xFFFFFFF0, lengthRx := 0x10 }

theorem witness_ResetMeetsTheInvariant : Params.default.Valid ∧ topParams.Valid := by decide

/-- A capture about to wrap and to trigger, with the Recorder's tick scheduled. -/
def capturing : State :=
  withSched [encode (.recTickWait .rx (.item true))] (withRec .waitTrigger [⟨fo 7 0, true⟩] fun r => { r with cursor := 0xFF })

theorem witness_EveryStepKeepsTheInvariant : capturing.Inv ∧ ∃ t, step capturing = .next t := by
  refine ⟨⟨by decide, ?_, ?_⟩, _, rfl⟩ <;> refine ⟨?_, ?_, ?_, ?_, ?_, ?_, ?_, ?_, ?_, ?_, ?_, ?_, ?_, ?_⟩ <;> decide

theorem witness_TrigSizeWriteStoresUpToMemSizeElseIsRefused :
    State.reset.par.Valid ∧ (256 : Word).toNat ≤ State.reset.par.memSize ∧ State.reset.par.memSize < (257 : Word).toNat := by decide

theorem witness_ConfigurationWritesStoreTheirField : State.reset.pipe .tx = State.reset.tx := rfl

theorem witness_StartRestartsItsPipeline : (1 : Word).getLsbD 0 = true ∧ (0xFFFFFFFE : Word).getLsbD 0 = false := by decide

theorem witness_StopMovesTheRecorderAlone :
    (1 : Word).getLsbD 0 = true ∧ (2 : Word).getLsbD 0 = false ∧
    (∀ st ∈ [RecSt.fillPreTrig, .waitTrigger, .fillPostTrig, .forced],
      (withRec st []).rx.rcr.st ∈ [RecSt.fillPreTrig, .waitTrigger, .fillPostTrig, .forced]) ∧
    (∀ st ∈ [RecSt.done, .abort], (withRec st []).rx.rcr.st ∈ [RecSt.done, .abort]) ∧ (withRec .idle []).rx.rcr.st = .idle := by decide

theorem witness_PatternEntriesAreWrittenAndReadBack :
    let s := State.resetWith topParams
    (15 : Byte).toNat < s.par.memSize ∧ s.rx.pattern[(15 : Byte).toNat]? = some .reset ∧ (15 : Byte).toNat < s.rx.pattern.length ∧
    s.par.memSize ≤ (16 : Byte).toNat := by decide

theorem witness_StatusAndGeometryReadsReport : (State.resetWith topParams).par.Valid := by decide

theorem witness_OtherAccessesReadZeroOrAreIgnored :
    (∀ n ∈ [0x048, 0x3FC, 0x800, 0xFFC],
      reservedOffset (BitVec.ofNat 12 n) = true ∧ (withSched [encodeCommand (.reservedRead .rx (BitVec.ofNat 12 n))]).par.Valid) ∧
    (withSched [encodeCommand (.reservedWrite .rx 0x048 9)]).sched = encodeCommand (.reservedWrite .rx 0x048 9) :: [] := by decide

theorem witness_SymbolPairsBecomeTransfers :
    symbolByte (.endSym .rx) = some (ctl 0xFD) ∧ instrPipe (.endSym .rx) = some .rx ∧ State.reset.rx.srcHalf = none ∧
    (rxWith fun q => { q with srcHalf := some (dat 1) }).rx.srcHalf = some (dat 1) := by decide

theorem witness_PeerPipelineIsUntouched :
    (∃ t, exec (.start .rx 1) State.reset = .next t) ∧ instrPipe (.start .rx 1) = some .rx := ⟨⟨_, rfl⟩, rfl⟩

theorem witness_EachKindOfStateHasItsWriters :
    (∃ t, exec (.recTickPre .rx (.item true)) (withRec .fillPreTrig [⟨fo 1 0, false⟩]) = .next t) ∧
    stepKind (.recTickPre .rx (.item true)) ≠ .clock ∧ stepKind (.recTickPre .rx (.item true)) ≠ .hostRead ∧
    stepKind (.recTickPre .rx (.item true)) ≠ .configWrite ∧ stepKind (.recTickPre .rx (.item true)) ≠ .symbol ∧
    stepKind (.recTickPre .rx (.item true)) ∉ [.symbol, .aligner] ∧ stepKind (.filtReadTsins .rx) ∉ [.aligner, .labeller, .start] ∧
    stepKind (.align .rx) ∉ [.labeller, .writer, .start] ∧ stepKind (.trig .rx) ∉ [.writer, .reader, .start] ∧
    stepKind (.label .rx) ∉ [.reader, .trigger, .start] ∧ stepKind (.filtWritePass .rx) ∉ [.trigger, .recorder, .start] ∧
    stepKind (.stop .rx 1) ∉ [.recorder, .start] ∧ stepKind .clock ∉ [.recorder, .start, .stop] ∧
    stepKind (.start .rx 1) ≠ .recorder := ⟨⟨_, rfl⟩, by decide⟩

theorem witness_RingMemoryChangesOnlyAtTheStoreAddress :
    (∃ t, exec (.recTickPre .rx (.item true)) (withRec .fillPreTrig [⟨fo 1 0, false⟩]) = .next t) ∧
    storeAddress (.recTickPre .rx (.item true)) (withRec .fillPreTrig [⟨fo 1 0, false⟩]) = some (.rx, 0) ∧
    storeAddress (.recTickPre .rx (.item true)) (withRec .fillPreTrig [⟨fo 1 0, false⟩]) ≠ some (.rx, 1) ∧
    storeAddress (.recTickPre .rx (.item true)) (withRec .fillPreTrig [⟨fo 1 0, false⟩]) ≠ some (.tx, 0) ∧
    storeAddress (.recTickPre .rx (.item false)) (withRec .fillPreTrig [⟨fo 1 0, false⟩]) = none ∧
    storeAddress (.recTickPre .rx .idle) (withRec .fillPreTrig [⟨fo 1 0, false⟩]) = none ∧
    storeAddress (.recTickIdle .rx (.item true)) (withRec .idle [⟨fo 1 0, false⟩]) = none ∧
    storeAddress (.recTickIdle .rx (.item true)) (withRec .idle [⟨fo 1 0, false⟩] fun r => { r with s2 := true }) = some (.rx, 0) ∧
    storeAddress (.recTickForced .rx (.item true)) (withRec .forced [⟨fo 1 0, false⟩]) = none ∧
    storeAddress (.recTickWait .rx (.item true)) (withRec .fillPreTrig [⟨fo 1 0, false⟩]) = none ∧
    storeAddress .clock State.reset = none := ⟨⟨_, rfl⟩, by decide⟩

theorem witness_PipelineDependsOnItselfClockAndForceWire :
    let s1 := State.reset
    let s2 := s1.setPipe .tx { s1.tx with qTrg := [⟨fo 1 0, true⟩] }
    instrPipe (.recTickIdle .rx .idle) = some .rx ∧ s1.par = s2.par ∧ s1.clock = s2.clock ∧ s1.pipe .rx = s2.pipe .rx ∧
    forceOut (s1.pipe (Pipe.rx).peer).rcr = forceOut (s2.pipe (Pipe.rx).peer).rcr ∧
    (∃ t, exec (.recTickIdle .rx .idle) s1 = .next t) ∧ ∃ t, exec (.recTickIdle .rx .idle) s2 = .next t :=
  ⟨rfl, rfl, rfl, rfl, rfl, ⟨_, rfl⟩, ⟨_, rfl⟩⟩

theorem witness_StepsOfDifferentPipelinesCommute :
    instrPipe (.label .rx) = some .rx ∧ instrPipe (.rdStatusState .tx) = some .tx ∧ stepKind (.label .rx) ≠ .recorder ∧
    stepKind (.rdStatusState .tx) ≠ .recorder ∧ (stepKind (.label .rx) ≠ .hostRead ∨ stepKind (.rdStatusState .tx) ≠ .hostRead) := by decide

theorem witness_AlignStepByPhaseAndComma :
    State.reset.rx.qRaw = [] ∧
    (∀ r ∈ [xf 0xBCBC 0b11, xf 0x0000 0, xf 0x00BC 0b01],
      let s := rxWith fun q => { q with qRaw := [r] }
      s.rx.qRaw = r :: [] ∧ s.rx.cls.phase = false) ∧
    (isCom (xf 0xBCBC 0b11).lane0 = true ∧ isCom (xf 0x0000 0).lane1 = false ∧ isCom (xf 0x00BC 0b01).lane0 = false ∧
      isCom (xf 0x00BC 0b01).lane1 = true) ∧
    (∀ r ∈ [xf 0xBCBC 0b11, xf 0x0000 0, xf 0xBC00 0b10],
      let s := rxWith fun q => { q with qRaw := [r], cls := { q.cls with phase := true, pend := some (dat 9) } }
      s.rx.qRaw = r :: [] ∧ s.rx.cls.phase = true ∧ s.rx.cls.pend = some (dat 9)) ∧
    (isCom (xf 0xBCBC 0b11).lane1 = true ∧ isCom (xf 0x0000 0).lane0 = false ∧ isCom (xf 0xBC00 0b10).lane1 = false ∧
      isCom (xf 0xBC00 0b10).lane0 = true) := by decide

theorem witness_AlignDropsOnlyTheByteBeforeAComma :
    let s := rxWith fun q => { q with qRaw := [xf 0x00BC 0b01] }
    (s.pipe .rx).cls.Good ∧ (s.pipe .rx).qRaw = xf 0x00BC 0b01 :: [] ∧ ∃ t, exec (.align .rx) s = .next t := ⟨by decide, rfl, _, rfl⟩

/-- A COM, then six bytes of which none is COM, then ten TS1 identifiers' worth of transfers. -/
def ts1Queue : List Xfer := [xf 0xBC01 0b10, xf 0x0203 0, xf 0x0405 0] ++ List.replicate 5 (xf 0x4A4A 0)

theorem witness_LabelStepLabelsAndDescramblesTheHead :
    let s := fun (l : List Xfer) (rem : Fin 8) => withCls fun c => { c with labq := l, rem := rem, cur := .skip }
    ((s [xf 0xBC00 0b10] 1).rx.cls.labq = xf 0xBC00 0b10 :: [] ∧ (s [xf 0xBC00 0b10] 1).rx.cls.rem ≠ 0) ∧
    isCom (xf 0x00BC 0b01).lane0 = false ∧ isCom (xf 0xBC00 0b10).lane0 = true ∧
    (shortSetType (window [xf 0xBC1C 0b11, xf 0x1C1C 0b11])).isSome = true ∧
    (∀ l ∈ [[xf 0xBC1C 0b11, xf 0x1C1C 0b11], [xf 0xBC3C 0b11, xf 0x3C3C 0b11], [xf 0xBC7C 0b11, xf 0x7C7C 0b11], [xf 0xBCB5 0b10, xf 0xBC4A 0b10]],
      clsType (window l) ∈ [OsType.skip, .fts, .idle, .compliance]) ∧
    8 ≤ ts1Queue.length ∧ clsType (window ts1Queue) ∈ [OsType.ts1, .ts2] ∧
    clsType (window (xf 0xBC00 0b10 :: List.replicate 7 (xf 0 0))) = .data ∧
    shortSetType (window (ts1Queue.take 7)) = none ∧ (ts1Queue.take 7).length < 8 := by decide

theorem witness_LabelDoesNotDependOnLaterTransfers :
    let s := withCls fun c => { c with labq := [xf 0x0001 0] }
    ∃ t, exec (.label .rx) s = .next t ∧ (t.pipe .rx).qCls ≠ (s.pipe .rx).qCls := ⟨_, rfl, by decide⟩

theorem witness_DescrambleByteFollowsItsTable :
    dat 0 ≠ ctl 0xBC ∧ dat 0 ≠ ctl 0x1C ∧ (ctl 0).k = true ∧ (dat 0).k = false ∧
    OsType.ts1 ∈ [OsType.ts1, .ts2, .compliance, .modifiedCompliance] ∧ OsType.skip ∉ [OsType.ts1, .ts2, .compliance, .modifiedCompliance] := by
  decide

theorem witness_LfsrGivesTheListedValuesAndKeys : 7 < 8 := by decide

theorem witness_ResetPutsEveryElementInItsTableValue : 255 < Params.default.memSize := by decide

theorem witness_DescramblerSwitchChangesDataOnly :
    let s := { (withCls fun c => { c with labq := [xf 0x0001 0] }) with par := { Params.default with descrambleEn := false } }
    (s.pipe .rx).cls.labq = xf 0x0001 0 :: [] ∧ s.par.descrambleEn = false ∧
    ∃ t c, exec (.label .rx) s = .next t ∧ (t.pipe .rx).qCls = (s.pipe .rx).qCls ++ [c] := ⟨rfl, rfl, _, _, rfl, rfl⟩

theorem witness_DisabledFilterPassesEverything :
    (let s := withFlt false [ct 0 0] fun f => { f with fifo := List.replicate 15 (fi 0 0 .none false false false 0) }
     s.rx.bank.filterEnable = false ∧ s.rx.qCls = ct 0 0 :: [] ∧ s.rx.flt.fifo.length < s.par.fifoDepth ∧ s.rx.flt.r = .noFilter ∧
     s.rx.flt.fifo = fi 0 0 .none false false false 0 :: List.replicate 14 (fi 0 0 .none false false false 0)) ∧
    (withFlt false [] id).rx.flt.fifo = [] := by decide

theorem witness_FindOpensAFrameOrDropsFiller :
    (∀ w ∈ [WState.noFilter, .find],
      let s := withFlt true [ct 0xBC1C 0b11 .skip] fun f => { f with w := w }
      s.rx.qCls = ct 0xBC1C 0b11 .skip :: [] ∧ s.rx.flt.fifo.length < s.par.fifoDepth ∧ s.rx.bank.filterEnable = true ∧
      (s.rx.flt.w = .noFilter ∨ s.rx.flt.w = .find)) ∧
    lane0Of 0xBC1C 0b11 = ctl 0xBC ∧ lane0Of 0xFBFD 0b11 = ctl 0xFB ∧ lane1Of 0xFBFD 0b11 = ctl 0xFD ∧ lane1Of 0xFB00 0b10 ≠ ctl 0xFD ∧
    lane0Of 0x5CFD 0b11 = ctl 0x5C ∧ lane1Of 0x5CFD 0b11 = ctl 0xFD ∧ lane0Of 0x00FB 0b01 ≠ ctl 0xFB ∧ lane0Of 0x00FB 0b01 ≠ ctl 0x5C ∧
    lane1Of 0x00FB 0b01 = ctl 0xFB ∧ lane1Of 0x005C 0b01 = ctl 0x5C ∧ lane0Of 0xBC00 0b10 = ctl 0xBC ∧
    ¬ (lane0Of 0xBC00 0b10 = ctl 0xBC ∧ OsType.data ∈ [OsType.skip, .fts, .ts1, .ts2]) ∧ lane1Of 0xBC00 0b10 ≠ ctl 0xFB ∧
    lane1Of 0xBC00 0b10 ≠ ctl 0x5C := by decide

theorem witness_OrderedSetBodyIsCounted :
    ∀ rem ∈ [(1 : Fin 8), 2, 7],
      let s := withFlt true [ct 0x1C1C 0b11 .skip] fun f => { f with w := .os rem .skip }
      s.rx.qCls = ct 0x1C1C 0b11 .skip :: [] ∧ s.rx.flt.fifo.length < s.par.fifoDepth ∧ s.rx.bank.filterEnable = true ∧
      s.rx.flt.w = .os rem .skip ∧ rem ≠ 0 := by decide

theorem witness_PacketItemPreemptsTimesOutEndsOrContinues :
    (∀ c ∈ [2, 3],
      let s := withFlt true [ct 0x02FD 0b01] fun f => { f with w := .pkt .tlp c }
      s.rx.qCls = ct 0x02FD 0b01 :: [] ∧ s.rx.flt.fifo.length < s.par.fifoDepth ∧ s.rx.bank.filterEnable = true ∧
      s.rx.flt.w = .pkt .tlp c ∧ s.rx.bank.timeout.toNat = 3) ∧
    lane1Of 0xFDFB 0b11 ∈ [ctl 0xFB, ctl 0x5C] ∧
    ¬ (lane0Of 0x02FD 0b01 ∈ [ctl 0xFB, ctl 0x5C] ∨ lane1Of 0x02FD 0b01 ∈ [ctl 0xFB, ctl 0x5C]) ∧
    (lane0Of 0x02FD 0b01 = ctl 0xFD ∨ lane1Of 0x02FD 0b01 = ctl 0xFD) ∧ ¬ (lane0Of 0x02FD 0b00 = ctl 0xFD ∨ lane1Of 0x02FD 0b00 = ctl 0xFD) := by
  decide

theorem witness_WriterStallsWithoutRoomOrItem :
    (withFlt true [] id).rx.qCls = [] ∧
    (let s := withFlt true [ct 0 0] fun f => { f with fifo := List.replicate 16 (fi 0 0 .none false false false 0) }
     s.par.fifoDepth ≤ s.rx.flt.fifo.length) ∧
    (withFlt false [ct 0 0] id).rx.bank.filterEnable = false ∧ (withFlt true [ct 0 0] id).rx.bank.filterEnable = true ∧
    (∀ w ∈ [WState.noFilter, .find], (withFlt true [ct 0 0] fun f => { f with w := w }).rx.flt.w = w) ∧
    (withFlt true [ct 0 0] fun f => { f with w := .os 1 .skip }).rx.flt.w = .os 1 .skip ∧
    (withFlt true [ct 0 0] fun f => { f with w := .pkt .dllp 0 }).rx.flt.w = .pkt .dllp 0 := by decide

theorem witness_ReaderSwitchesModeFirst :
    ((withFlt true [] id).rx.bank.filterEnable = true ∧ (withFlt true [] id).rx.flt.r = .noFilter) ∧
    (∀ r ∈ [RState.filter, .tsi .hi 0 .tlp, .read .tlp true false],
      (withFlt false [] fun f => { f with r := r }).rx.bank.filterEnable = false ∧ (withFlt false [] fun f => { f with r := r }).rx.flt.r = r) := by
  decide

theorem witness_SelectExaminesTheFrameAtTheHead :
    (withFlt true [] fun f => { f with r := .filter }).rx.flt.fifo = [] ∧
    (∀ h ∈ [fi 0 0 .tlp false false false 0, fi 0 0 .tlp true false false 5, fi 0 0 .skip true false false 6],
      let s := withFlt true [] fun f => { f with r := .filter, tsValid := true, lastTs := 5, fifo := [h] }
      s.rx.bank.filterEnable = true ∧ s.rx.flt.r = .filter ∧ s.rx.flt.fifo = h :: [] ∧ s.rx.flt.tsValid = true ∧ s.rx.flt.lastTs = 5 ∧
      s.rx.bank.filterConfig.getLsbD 0 = true ∧ s.rx.bank.filterConfig.getLsbD 4 = true) ∧ (6 : Word) ≠ 5 := by decide

theorem witness_TimestampIsInsertedHighHalfFirst :
    ∀ h ∈ [TsHalf.hi, .lo],
      let s := withFlt true [] fun f => { f with r := .tsi h 0xFFFF0000 .dllp }
      s.rx.bank.filterEnable = true ∧ s.rx.flt.r = .tsi h 0xFFFF0000 .dllp := by decide

theorem witness_DrainForwardsOrDiscardsTheFrame :
    (withFlt true [] fun f => { f with r := .read .tlp true true }).rx.flt.fifo = [] ∧
    (∀ e ∈ [(true, fi 0 0 .tlp true false false 5), (false, fi 0 0 .tlp true false false 5), (true, fi 0 0 .tlp false true true 0)],
      let s := withFlt true [] fun f => { f with r := .read .tlp true e.1, fifo := [e.2] }
      s.rx.bank.filterEnable = true ∧ s.rx.flt.r = .read .tlp true e.1 ∧ s.rx.flt.fifo = e.2 :: []) ∧
    (fi 0 0 .tlp true false false 5).sof = true ∧ (fi 0 0 .tlp false true true 0).sof = false := by decide

theorem witness_ErrorEventsHaveTheirCauses :
    (∀ c ∈ [2, 3],
      let s := withFlt true [ct 0x02FD 0b01] fun f => { f with w := .pkt .tlp c }
      nextHas (exec (.filtWritePkt .rx) s) (fun t => decide (∃ it ∈ t.rx.flt.fifo, t.rx.flt.fifo = s.rx.flt.fifo ++ [it])) = true) ∧
    (let s := withTrg true 2 [fo 0xBC1C 0b11] id
     s.rx.qFlt = fo 0xBC1C 0b11 :: [] ∧ s.rx.bank.trigArmed = true ∧ s.rx.trg.st ≠ .done ∧ (fo 0xBC1C 0b11).isTs = false ∧
     0 < s.rx.bank.trigSize.toNat) ∧
    ¬ ((withTrg false 2 [fo 0xBC1C 0b11] id).rx.bank.trigArmed = true) ∧ (withTrg true 2 [] id).rx.qFlt = [] ∧
    nextHas (exec (.filtWritePkt .rx) (withFlt true [] id)) (fun t => decide (t.rx.flt.fifo = [])) = true ∧
    nextHas (exec (.label .rx) (withCls fun c => { c with labq := [xf 0xBC00 0b10] })) (fun t => decide (t.rx.qCls = [])) = true ∧
    (let s := withCls fun c => { c with labq := xf 0xBC00 0b10 :: List.replicate 7 (xf 0 0) }
     s.rx.cls.labq = xf 0xBC00 0b10 :: List.replicate 7 (xf 0 0) ∧
     nextHas (exec (.label .rx) s) (fun t => decide (∃ c ∈ t.rx.qCls, t.rx.qCls = s.rx.qCls ++ [c])) = true) ∧
    stepKind .clock ∉ [.writer, .stop, .trigger, .labeller] := by decide

/-- 95_test_vectors.md TV1: the aligned track completes on an item that the unaligned track fails (R440, R262). -/
theorem test_mismatch_event_beside_a_completed_track :
    errorEvents (.trig .rx) (withTrg true 2 [fo 0xBC1C 0b11] id) = [.mismatch] ∧
    nextHas (exec (.trig .rx) (withTrg true 2 [fo 0xBC1C 0b11] id)) (fun t => decide (t.rx.trg.st = .done)) = true := by decide

theorem witness_EnginePassesItemsItDoesNotCompare :
    (withTrg true 2 [] id).rx.qFlt = [] ∧
    (∀ st ∈ [TrigSt.idle, .active, .done],
      let s := withTrg true 2 [fo 0 0 true] fun t => { t with st := st }
      s.rx.qFlt = fo 0 0 true :: [] ∧ s.rx.bank.trigArmed = true ∧ s.rx.trg.st = st ∧ (fo 0 0 true).isTs = true) ∧
    (withTrg false 2 [fo 0 0] id).rx.bank.trigArmed = false := by decide

theorem witness_ArmedEngineComparesBothTracks :
    (let s := withTrg true 2 [fo 0xBC1C 0b11] id
     s.rx.qFlt = fo 0xBC1C 0b11 :: [] ∧ s.rx.bank.trigArmed = true ∧ s.rx.trg.st ≠ .done ∧ (fo 0xBC1C 0b11).isTs = false ∧
     s.rx.bank.trigSize.toNat = 2 ∧ alignedTrack s.rx.pattern 2 0 (lane0Of 0xBC1C 0b11) (lane1Of 0xBC1C 0b11) = 2) ∧
    (let s := withTrg true 0 [fo 0xBC1C 0b11] id
     s.rx.bank.trigSize.toNat ≤ s.rx.trg.pa) ∧
    (let s := withTrg true 3 [fo 0x0000 0] fun t => { t with st := .active }
     s.rx.trg.pa < s.rx.bank.trigSize.toNat ∧ s.rx.trg.pu < s.rx.bank.trigSize.toNat ∧
     alignedTrack s.rx.pattern 3 0 (lane0Of 0 0) (lane1Of 0 0) = 0 ∧ unalignedTrack s.rx.pattern 3 0 (lane0Of 0 0) (lane1Of 0 0) = 0) := by
  decide

theorem witness_OccurrenceFromAStartPositionIsDetected :
    (∀ size ∈ [1, 2], ∀ st ∈ [TrigSt.idle, .active],
      let ys := [fo 0xBC00 0 true, fo 0xBC1C 0b11]
      let s := withTrg true (BitVec.ofNat 9 size) (ys ++ [fo 0 0]) fun t => { t with st := st }
      (s.pipe .rx).qFlt = ys ++ [fo 0 0] ∧ (s.pipe .rx).bank.trigArmed = true ∧ 1 ≤ (s.pipe .rx).bank.trigSize.toNat ∧
      (s.pipe .rx).trg.st = st ∧ (s.pipe .rx).trg.pa = 0 ∧
      (ys.filter (fun y => !y.isTs)).length = ((s.pipe .rx).bank.trigSize.toNat + 1) / 2 ∧
      entryMatches ((s.pipe .rx).pattern.getD 0 .reset) (lane0Of 0xBC1C 0b11) = true ∧
      entryMatches ((s.pipe .rx).pattern.getD 1 .reset) (lane1Of 0xBC1C 0b11) = true) ∧
    (∀ size ∈ [2, 3], ∀ st ∈ [TrigSt.idle, .active],
      let ys := [fo 0x00BC 0b01, fo 0xBC00 0 true, fo 0x1C00 0b10]
      let s := withTrg true (BitVec.ofNat 9 size) ys fun t => { t with st := st }
      (s.pipe .rx).qFlt = ys ++ [] ∧ (s.pipe .rx).trg.st = st ∧ (s.pipe .rx).trg.pu = 0 ∧
      (ys.filter (fun y => !y.isTs)).length = (s.pipe .rx).bank.trigSize.toNat / 2 + 1 ∧
      entryMatches ((s.pipe .rx).pattern.getD 0 .reset) (lane1Of 0x00BC 0b01) = true ∧
      entryMatches ((s.pipe .rx).pattern.getD 1 .reset) (lane0Of 0x1C00 0b10) = true ∧
      (size = 3 → entryMatches ((s.pipe .rx).pattern.getD 2 .reset) (lane1Of 0x1C00 0b10) = true)) := by decide

theorem witness_CursorAdvancesAndWraps :
    Params.default.Valid ∧ InRing Params.default .tx (0x100 : Word).toNat ∧ InRing Params.default .tx (0x1FF : Word).toNat ∧
    topParams.Valid ∧ InRing topParams .rx (0xFFFFFFFC : Word).toNat := by decide

/-- The synchroniser of a Recorder that sees a rise. -/
def rising (r : RecorderState) : RecorderState := { r with s2 := true, fprev := false }

theorem witness_IdleRecorderDropsOrIsForced :
    (withRec .idle [⟨fo 1 0, true⟩]).rx.rcr.st = .idle ∧
    ¬ ((withRec .idle [⟨fo 1 0, true⟩]).rx.rcr.s2 = true ∧ (withRec .idle [⟨fo 1 0, true⟩]).rx.rcr.fprev = false) ∧
    (withRec .idle [⟨fo 1 0, true⟩] rising).rx.rcr.s2 = true ∧ (withRec .idle [⟨fo 1 0, true⟩] rising).rx.rcr.fprev = false ∧
    (withRec .idle [⟨fo 1 0, true⟩] rising).rx.qTrg = ⟨fo 1 0, true⟩ :: [] ∧
    false = decide (((withRec .idle []).pipe (Pipe.rx).peer).rcr.st = .fillPostTrig) := by decide

theorem witness_PreTriggerFillWritesAndCounts :
    ∀ n ∈ [0, 1],
      let s := withRec .fillPreTrig [⟨fo 1 0, true⟩] fun r => { r with preCnt := BitVec.ofNat 32 n }
      s.rx.rcr.st = .fillPreTrig ∧ ¬ (s.rx.rcr.s2 = true ∧ s.rx.rcr.fprev = false) ∧ s.rx.qTrg = ⟨fo 1 0, true⟩ :: [] := by decide

theorem witness_WaitingRecorderRetainsUntilItsTrigger :
    (∀ b ∈ [true, false],
      let s := withRec .waitTrigger [⟨fo 1 0, b⟩]
      s.rx.rcr.st = .waitTrigger ∧ ¬ (s.rx.rcr.s2 = true ∧ s.rx.rcr.fprev = false) ∧ s.rx.qTrg = ⟨fo 1 0, b⟩ :: []) ∧
    (let s := withRec .waitTrigger [⟨fo 1 0, true⟩] rising
     s.rx.rcr.st = .waitTrigger ∧ s.rx.rcr.s2 = true ∧ s.rx.rcr.fprev = false ∧ s.rx.qTrg = ⟨fo 1 0, true⟩ :: []) := by decide

theorem witness_ExternalTriggerStartsThePostWindow :
    ∀ st ∈ [RecSt.fillPreTrig, .waitTrigger],
      let s := withRec st [⟨fo 1 0, false⟩] rising
      s.rx.rcr.st = st ∧ s.rx.rcr.s2 = true ∧ s.rx.rcr.fprev = false ∧ s.rx.qTrg = ⟨fo 1 0, false⟩ :: [] ∧
      true = decide (((s.setPipe .tx { s.tx with rcr := { s.tx.rcr with st := .fillPostTrig } }).pipe (Pipe.rx).peer).rcr.st = .fillPostTrig) := by
  decide

theorem witness_PostTriggerFillWritesUntilSize :
    ∀ n ∈ [0, 1, 2],
      let s := withRec .fillPostTrig [⟨fo 1 0, true⟩] fun r => { r with postCnt := BitVec.ofNat 32 n }
      s.rx.rcr.st = .fillPostTrig ∧ s.rx.qTrg = ⟨fo 1 0, true⟩ :: [] := by decide

theorem witness_FinishedDiscardsAndForcedWritesWhileTheWireIsHigh :
    (∀ st ∈ [RecSt.done, .abort], (withRec st [⟨fo 1 0, true⟩]).rx.rcr.st ∈ [RecSt.done, .abort]) ∧
    (∀ b ∈ [true, false],
      let s := withRec .forced [⟨fo 1 0, true⟩] fun r => { r with s2 := b }
      s.rx.rcr.st = .forced ∧ s.rx.rcr.s2 = b ∧ s.rx.qTrg = ⟨fo 1 0, true⟩ :: []) := by decide

theorem witness_RecorderWaitsForItemAndSink :
    (withRec .forced []).rx.qTrg = [] ∧ (withRec .forced [⟨fo 1 0, true⟩] rising).rx.rcr.s2 = true ∧
    (withRec .idle [⟨fo 1 0, true⟩] rising).rx.rcr.fprev = false ∧
    (∀ st ∈ [RecSt.fillPreTrig, .waitTrigger, .fillPostTrig, .forced],
      (withRec st []).rx.rcr.st ≠ .idle ∧ (withRec st []).rx.rcr.st ≠ .done ∧ (withRec st []).rx.rcr.st ≠ .abort) ∧
    (withRec .idle []).rx.rcr.st ≠ .fillPreTrig ∧ (withRec .idle []).rx.rcr.st ≠ .waitTrigger ∧ (withRec .idle []).rx.rcr.st ≠ .fillPostTrig ∧
    (withRec .idle []).rx.rcr.st ≠ .forced := by decide

/-- Four items, the third a trigger. -/
def windowItems : List TrigOut := [⟨fo 1 0, true⟩, ⟨fo 2 0, false⟩, ⟨fo 3 0, true⟩, ⟨fo 4 0, false⟩]

/-- OFFSET 2, SIZE 2, in a ring of exactly four records at the top of the address space. -/
def windowState : State :=
  let s := State.resetWith topParams
  s.setPipe .rx { s.rx with
    qTrg := windowItems ++ [⟨fo 5 0, true⟩], bank := { s.rx.bank with recOffset := 2, recSize := 2 }, rcr := { s.rx.rcr with st := .fillPreTrig } }

theorem witness_CapturedWindowHoldsOffsetPlusSizeRecords :
    windowState.par.Valid ∧ windowState.par.postIncludesTrig = true ∧ (windowState.pipe .rx).bank.recMode = .raw ∧
    (windowState.pipe .rx).bank.recOffset = 2 ∧ (windowState.pipe .rx).bank.recSize = 2 ∧ 1 ≤ (2 : Word).toNat ∧
    ((2 : Word).toNat + (2 : Word).toNat) * windowState.par.addrStep ≤ windowState.par.length .rx ∧
    (windowState.pipe .rx).rcr =
      { st := if (2 : Word) = 0 then .waitTrigger else .fillPreTrig
        cursor := BitVec.ofNat 32 (windowState.par.base .rx), first := true, trigAddr := BitVec.ofNat 32 (windowState.par.base .rx)
        preCnt := 0, postCnt := 0, s1 := false, s2 := false, fprev := false } ∧
    (windowState.pipe (Pipe.rx).peer).rcr.st ≠ .fillPostTrig ∧
    (windowState.pipe .rx).qTrg = windowItems ++ [⟨fo 5 0, true⟩] ∧ windowItems.length = 2 + (2 : Word).toNat ∧ (2 : Word).toNat ≤ 2 ∧
    (∃ y, windowItems[2]? = some y ∧ y.trig = true) ∧
    (∀ n y, (2 : Word).toNat ≤ n → n < 2 → windowItems[n]? = some y → y.trig = false) := by
  refine ⟨by decide, by decide, by decide, by decide, by decide, by decide, by decide, by decide, by decide, by decide, by decide, by decide,
    ⟨_, rfl, rfl⟩, fun n y h1 h2 => absurd h2 (Nat.not_lt.mpr h1)⟩

/-! ### Witnesses for the runs without end -/

/-- One transfer goes through the whole RX pipeline, and the two Recorders then tick idly in turn. -/
def fairCmd : Nat → Command
  | 0 => .agent .rx .aligner
  | 1 => .agent .rx .labeller
  | 2 => .agent .rx .writer
  | 3 => .agent .rx .reader
  | 4 => .agent .rx .trigger
  | 5 => .agent .rx (.recorder (.item true))
  | n + 6 => .agent (if n % 2 = 0 then .rx else .tx) (.recorder .idle)

/-- The states of that run. -/
def fairState : Nat → State
  | 0 => rxWith fun q => { q with qRaw := [xf 0x0001 0] }
  | n + 1 => match runCommand (fairCmd n) (fairState n) with
    | .next t => t
    | .fault _ | .refused _ => fairState n

/-- An idle tick changes nothing once the transfer is through. -/
theorem fairState_idle (p : Pipe) : runCommand (.agent p (.recorder .idle)) (fairState 6) = .next (fairState 6) := by
  cases p <;> rfl

theorem fairState_end (n : Nat) : fairState (n + 6) = fairState 6 := by
  induction n with
  | zero => rfl
  | succ n ih => rw [show n + 1 + 6 = n + 6 + 1 by omega, fairState, ih, fairCmd, fairState_idle]

theorem fairState_start : (fairState 0).Inv := by
  refine ⟨by decide, ?_, ?_⟩ <;> refine ⟨?_, ?_, ?_, ?_, ?_, ?_, ?_, ?_, ?_, ?_, ?_, ?_, ?_, ?_⟩ <;> decide

theorem fairState_isRun : IsRun fairCmd fairState := by
  intro n
  match n with
  | 0 | 1 | 2 | 3 | 4 | 5 => rfl
  | n + 6 => rw [show n + 6 + 1 = n + 1 + 6 by omega, fairState_end, fairState_end (n + 1), fairCmd, fairState_idle]

theorem fairState_isFair : FairRun fairCmd fairState fun _ _ => true := by
  intro p
  refine ⟨fun a ha n h => ?_, fun n => ?_, ⟨fun n => ⟨n, Nat.le_refl n, rfl⟩, fun m r h => ?_⟩, fun n h => ?_⟩
  · have h6 := h (n + 6) (by omega)
    rw [fairState_end] at h6
    have hn : ∀ p : Pipe, ∀ a ∈ [Agent.aligner, .labeller, .writer, .reader, .trigger], agentEnabled p a (fairState 6) = false := by
      intro p; cases p <;> decide
    rw [hn p a ha] at h6
    cases h6
  · have hm : ∀ k, agentEnabled p (.recorder .idle) (fairState (k + 6)) = true := by
      intro k; rw [fairState_end]; cases p <;> rfl
    cases p with
    | rx => exact ⟨2 * n + 6, .idle, by omega, .inl (by simp [fairCmd]), hm _⟩
    | tx => exact ⟨2 * n + 1 + 6, .idle, by omega, .inl (by simp [fairCmd, Nat.add_mod]), hm _⟩
  · match m with
    | 0 | 1 | 2 | 3 | 4 => rcases h with h | h <;> cases h
    | 5 => rcases h with h | h <;> cases h; rfl
    | m + 6 => rcases h with h | h <;> simp [fairCmd] at h
  · have h6 := h (n + 6) (by omega)
    rw [fairState_end] at h6
    cases p <;> exact absurd rfl h6

theorem witness_FairRunsProcessTheHeadOfEveryQueue :
    (fairState 0).Inv ∧ IsRun fairCmd fairState ∧ FairRun fairCmd fairState (fun _ _ => true) ∧
    ((fairState 0).pipe .rx).qRaw ≠ [] ∧ ((fairState 1).pipe .rx).cls.labq ≠ [] ∧ ((fairState 2).pipe .rx).qCls ≠ [] ∧
    ((fairState 3).pipe .rx).flt.fifo ≠ [] ∧ ((fairState 4).pipe .rx).qFlt ≠ [] ∧ ((fairState 5).pipe .rx).qTrg ≠ [] ∧
    ∀ m, ((fairState m).pipe .rx).bank.filterEnable = false := by
  refine ⟨fairState_start, fairState_isRun, fairState_isFair, by decide, by decide, by decide, by decide, by decide, by decide, fun m => ?_⟩
  match m with
  | 0 | 1 | 2 | 3 | 4 | 5 => rfl
  | m + 6 => rw [fairState_end]; rfl

theorem witness_HostReadsSeeAPrefixUntilFinishedIsObserved :
    let s := { (withRec .done []) with hostRd := 1 }
    let cmd := fun _ => Command.instr (.rdStatusFinished .rx)
    let capture := withRec .waitTrigger []
    IsRun cmd (fun _ => s) ∧ RingView cmd (fun _ => s) .rx (fun _ => True) id ∧ ObservesFinishedAt cmd (fun _ => s) .rx 0 ∧
    isCapturing (s.pipe .rx).rcr = false ∧ (s.pipe .rx).rcr.st ∈ [RecSt.done, .abort, .idle] ∧
    IsRun cmd (fun _ => capture) ∧ isCapturing (capture.pipe .rx).rcr = true ∧
    (∀ f, f < 1 → ObservesFinishedAt cmd (fun _ => capture) .rx f → f ≤ 0) :=
  ⟨fun _ => rfl, ⟨fun _ => Nat.le_refl _, fun _ _ => rfl, fun _ _ h _ => Nat.le_of_lt h, fun _ _ h _ _ => h⟩, ⟨rfl, rfl⟩, rfl, by decide,
    fun _ => rfl, rfl, fun _ h _ => Nat.le_of_lt_succ h⟩

end Sys2Proof.Tests
end

section
/-! PROOF. Words written out bit by bit, decoded. -/

namespace Sys2Proof

/-- Settles O6: each word is closed, and the decoder reads its row by evaluation. -/
theorem writtenOutWordsDecode : Obligations.WrittenOutWordsDecode :=
  ⟨rfl, rfl, rfl, rfl, rfl, rfl, rfl, rfl, rfl⟩

end Sys2Proof
end

section
/-! PROOF. The parts of the invariant: the pipelines of a state, the record addresses of a ring, the ring memory, and one rule for each
group of fields that a stage replaces. -/

namespace Sys2Proof.Config

theorem Params.Valid.ringValid {par : Params} (h : par.Valid) (p : Pipe) : par.RingValid p := by
  obtain ⟨_, _, _, _, hrx, htx, _⟩ := h
  cases p with
  | rx => exact hrx
  | tx => exact htx

end Sys2Proof.Config

namespace Sys2Proof.Machine

open Sys2Proof.Config Host

/-! ### The machine and its pipelines -/

theorem State.Inv.valid {s : State} (h : s.Inv) : s.par.Valid := by
  obtain ⟨hv, _⟩ := h
  exact hv

theorem State.Inv.pipe {s : State} (h : s.Inv) (p : Pipe) : (s.pipe p).Good s.par p := by
  obtain ⟨_, hrx, htx⟩ := h
  cases p with
  | rx => exact hrx
  | tx => exact htx

theorem State.Inv.setPipe {s : State} {p : Pipe} {q : PipelineState} (h : s.Inv) (hq : q.Good s.par p) : (s.setPipe p q).Inv := by
  obtain ⟨hv, hrx, htx⟩ := h
  cases p with
  | rx => exact ⟨hv, hq, htx⟩
  | tx => exact ⟨hv, hrx, hq⟩

/-! ### The record addresses of a ring -/

/-- BASE_P is a record address: the ring is not empty. -/
theorem inRing_base {par : Params} (hv : par.Valid) (p : Pipe) : InRing par p (BitVec.ofNat 32 (par.base p)).toNat := by
  obtain ⟨hlen, _, _, hlim⟩ := hv.ringValid p
  have hlt : par.base p < par.limit p := Nat.lt_add_of_pos_right hlen
  rw [BitVec.toNat_ofNat, Nat.mod_eq_of_lt (by omega)]
  exact ⟨Nat.le_refl _, hlt, by simp⟩

/-- The advanced cursor is a record address (43_recorder.md R304): below the limit the sum fits 32 bits and stays aligned, and otherwise
the cursor wraps to BASE_P. -/
theorem inRing_nextCursor {par : Params} {p : Pipe} {c : Word} (hv : par.Valid) (h : InRing par p c.toNat) :
    InRing par p (nextCursor par p c).toNat := by
  obtain ⟨hbase, _, halign⟩ := h
  obtain ⟨_, _, _, hlim⟩ := hv.ringValid p
  rcases Nat.lt_or_ge (c.toNat + par.addrStep) (par.limit p) with hlt | hge
  · have hsub : c.toNat + par.addrStep - par.base p = c.toNat - par.base p + par.addrStep := by omega
    rw [nextCursor_of_lt hlt, BitVec.toNat_ofNat, Nat.mod_eq_of_lt (by omega)]
    exact ⟨by omega, hlt, by rw [hsub, Nat.add_mod_right, halign]⟩
  · rw [nextCursor_of_le hge]
    exact inRing_base hv p

/-! ### The ring memory -/

/-- A ring record leaves bits [31:27] zero (30_encoding.md R109): its fields are 27 bits wide. -/
theorem pack_toNat_lt (y : FiltOut) (trigBit first : Bool) : (pack y trigBit first).toNat < 2 ^ 27 := by
  rw [pack, BitVec.toNat_setWidth]
  exact Nat.lt_of_le_of_lt (Nat.mod_le _ _) (BitVec.isLt _)

theorem Memory.Good.ringWrite {par : Params} {p : Pipe} {r : Memory} {a : Nat} {w : Word} (h : Memory.Good par p r)
    (ha : InRing par p a) (hw : w.toNat < 2 ^ 27) : Memory.Good par p (ringWrite r a w) := by
  obtain ⟨hwf, hrec⟩ := h
  refine ⟨Memory.wf_ringWrite hwf a w, fun e he => ?_⟩
  rcases mem_ringWrite he with rfl | hold
  · exact ⟨ha, hw⟩
  · exact hrec e hold

/-! ### The Filter's part of a good pipeline -/

/-- The Filter's own share of `PipelineState.Good`. -/
structure FilterState.Good (par : Params) (f : FilterState) : Prop where
  writer : f.w.Good
  reader : f.r.Good
  items : ∀ x ∈ f.fifo, x.Good
  room : f.fifo.length ≤ par.fifoDepth

theorem FilterState.good_reset (par : Params) : FilterState.reset.Good par where
  writer := rfl
  reader := rfl
  items := by simp [FilterState.reset]
  room := Nat.zero_le _

/-! ### Reading a good pipeline -/

section Pipeline

variable {par : Params} {p : Pipe} {q : PipelineState}

theorem PipelineState.Good.classifier (h : q.Good par p) : q.cls.Good := by
  obtain ⟨hcls, _⟩ := h
  exact hcls

theorem PipelineState.Good.classified (h : q.Good par p) : ∀ x ∈ q.qCls, x.Good := by
  obtain ⟨_, hqCls, _⟩ := h
  exact hqCls

theorem PipelineState.Good.filter (h : q.Good par p) : q.flt.Good par := by
  obtain ⟨_, _, hw, hr, hfifo, hroom, _⟩ := h
  exact ⟨hw, hr, hfifo, hroom⟩

theorem PipelineState.Good.emitted (h : q.Good par p) : ∀ y ∈ q.qFlt, y.Good := by
  obtain ⟨_, _, _, _, _, _, hqFlt, _⟩ := h
  exact hqFlt

theorem PipelineState.Good.trigger (h : q.Good par p) : q.trg.Good par := by
  obtain ⟨_, _, _, _, _, _, _, htrg, _⟩ := h
  exact htrg

theorem PipelineState.Good.forwarded (h : q.Good par p) : ∀ y ∈ q.qTrg, y.item.Good ∧ (y.trig = true → y.item.isTs = false) := by
  obtain ⟨_, _, _, _, _, _, _, _, hqTrg, _⟩ := h
  exact hqTrg

theorem PipelineState.Good.cursor (h : q.Good par p) : InRing par p q.rcr.cursor.toNat := by
  obtain ⟨_, _, _, _, _, _, _, _, _, hcur, _⟩ := h
  exact hcur

theorem PipelineState.Good.trigAddr (h : q.Good par p) : InRing par p q.rcr.trigAddr.toNat := by
  obtain ⟨_, _, _, _, _, _, _, _, _, _, haddr, _⟩ := h
  exact haddr

theorem PipelineState.Good.ring (h : q.Good par p) : Memory.Good par p q.ring := by
  obtain ⟨_, _, _, _, _, _, _, _, _, _, _, hm, _⟩ := h
  exact hm

theorem PipelineState.Good.trigSize (h : q.Good par p) : q.bank.trigSize.toNat ≤ par.memSize := by
  obtain ⟨_, _, _, _, _, _, _, _, _, _, _, _, hsize, _⟩ := h
  exact hsize

theorem PipelineState.Good.pattern (h : q.Good par p) : q.pattern.length = par.memSize := by
  obtain ⟨_, _, _, _, _, _, _, _, _, _, _, _, _, htbl⟩ := h
  exact htbl

/-! ### Replacing a group of a pipeline's fields -/

/-- A pipeline is good whatever waits at its input. -/
theorem PipelineState.Good.setInput (h : q.Good par p) (half : Option SymByte) (raw : List Xfer) :
    PipelineState.Good par p { q with srcHalf := half, qRaw := raw } := h

theorem PipelineState.Good.setClassifier (h : q.Good par p) {c : ClassifierState} {l : List ClassifiedTransfer} (raw : List Xfer)
    (hc : c.Good) (hl : ∀ x ∈ l, x.Good) : PipelineState.Good par p { q with qRaw := raw, cls := c, qCls := l } := by
  obtain ⟨_, _, hrest⟩ := h
  exact ⟨hc, hl, hrest⟩

theorem PipelineState.Good.setFilter (h : q.Good par p) {f : FilterState} {l : List ClassifiedTransfer} {out : List FiltOut}
    (hl : ∀ x ∈ l, x.Good) (hf : f.Good par) (hout : ∀ y ∈ out, y.Good) :
    PipelineState.Good par p { q with qCls := l, flt := f, qFlt := out } := by
  obtain ⟨hcls, _, _, _, _, _, _, hrest⟩ := h
  exact ⟨hcls, hl, hf.writer, hf.reader, hf.items, hf.room, hout, hrest⟩

theorem PipelineState.Good.setTrigger (h : q.Good par p) {t : TriggerState} {l : List FiltOut} {out : List TrigOut}
    (hl : ∀ y ∈ l, y.Good) (ht : t.Good par) (hout : ∀ y ∈ out, y.item.Good ∧ (y.trig = true → y.item.isTs = false)) :
    PipelineState.Good par p { q with qFlt := l, trg := t, qTrg := out } := by
  obtain ⟨hcls, hqCls, hw, hr, hfifo, hroom, _, _, _, hrest⟩ := h
  exact ⟨hcls, hqCls, hw, hr, hfifo, hroom, hl, ht, hout, hrest⟩

theorem PipelineState.Good.setRecorder (h : q.Good par p) {r : RecorderState} {m : Memory} (hcur : InRing par p r.cursor.toNat)
    (haddr : InRing par p r.trigAddr.toNat) (hm : Memory.Good par p m) : PipelineState.Good par p { q with rcr := r, ring := m } := by
  obtain ⟨hcls, hqCls, hw, hr, hfifo, hroom, hqFlt, htrg, hqTrg, _, _, _, hrest⟩ := h
  exact ⟨hcls, hqCls, hw, hr, hfifo, hroom, hqFlt, htrg, hqTrg, hcur, haddr, hm, hrest⟩

/-- The registers enter the invariant by TRIG_SIZE and the length of the pattern table alone. -/
theorem PipelineState.Good.setBank (h : q.Good par p) {b : Bank} {tbl : List PatternEntry} (hsize : b.trigSize.toNat ≤ par.memSize)
    (htbl : tbl.length = par.memSize) : PipelineState.Good par p { q with bank := b, pattern := tbl } := by
  obtain ⟨hcls, hqCls, hw, hr, hfifo, hroom, hqFlt, htrg, hqTrg, hcur, haddr, hm, _, _⟩ := h
  exact ⟨hcls, hqCls, hw, hr, hfifo, hroom, hqFlt, htrg, hqTrg, hcur, haddr, hm, hsize, htbl⟩

end Pipeline

end Sys2Proof.Machine
end

section
/-! PROOF. Each stage's action keeps a good pipeline good: the classifier, the Frame Filter, the Trigger Engine and the Recorder. -/

namespace Sys2Proof.Machine

open Sys2Proof.Config Host

/-! ### Classifier -/

/-- The aligner holds a byte exactly in phase 1 (10_state.md R34), after each of R150's branches. -/
theorem alignTransfer_good {r : Xfer} {c c' : ClassifierState} (h : c.Good) (ha : alignTransfer r c = some c') : c'.Good := by
  obtain ⟨hpend, hset⟩ := h
  unfold alignTransfer at ha
  dsimp only at ha
  split at ha
  · next hphase =>
    split at ha
    · cases ha
    · split at ha
      · cases ha; exact ⟨hphase.symm, hset⟩
      · cases ha; exact ⟨rfl, hset⟩
  · split at ha
    · cases ha; exact ⟨hpend, hset⟩
    · cases ha; exact ⟨rfl, hset⟩

theorem alignAction_good {par : Params} {p : Pipe} {q q' : PipelineState} (h : q.Good par p) (ha : alignAction q = some q') :
    q'.Good par p := by
  obtain ⟨r, rest, c, _, hc, rfl⟩ := alignAction_some ha
  exact h.setClassifier rest (alignTransfer_good h.classifier hc) h.classified

/-- The recognition table never answers MODIFIED_COMPLIANCE (40_classifier.md R153, R154). -/
theorem clsType_ne_modifiedCompliance (win : List SymByte) : clsType win ≠ .modifiedCompliance := by
  have hshort : shortSetType win ≠ some .modifiedCompliance := by
    unfold shortSetType
    repeat' split
    all_goals simp
  have hlong : longSetType win ≠ .modifiedCompliance := by
    unfold longSetType
    dsimp only
    repeat' split
    all_goals simp
  unfold clsType
  cases hs : shortSetType win with
  | none => exact hlong
  | some os => rintro rfl; exact hshort hs

/-- What follows the first transfer of a recognised set is shorter than the set (10_state.md R35). -/
theorem osRest_lt_osLen {os : OsType} (hdata : os ≠ .data) (hmod : os ≠ .modifiedCompliance) : (osRest os).val < osLen os := by
  cases os with
  | data => exact absurd rfl hdata
  | modifiedCompliance => exact absurd rfl hmod
  | skip | idle | fts | ts1 | ts2 | compliance => decide

/-- After a label the open set is still longer than its rest, and MODIFIED_COMPLIANCE is neither open nor the label. -/
theorem labelHead_good {c : ClassifierState} (x : Xfer) (h : c.Good) :
    let l := labelHead c x
    (l.2.1 ≠ 0 → l.2.1.val < osLen l.2.2) ∧ l.2.2 ≠ .modifiedCompliance ∧ l.1 ≠ .modifiedCompliance := by
  obtain ⟨_, hrem, hcur⟩ := h
  have hcls := clsType_ne_modifiedCompliance (window c.labq)
  unfold labelHead
  dsimp only
  split
  · next hne =>
    refine ⟨fun _ => ?_, hcur, hcur⟩
    have := hrem hne
    have := Fin.val_sub_one_of_ne_zero hne
    dsimp only
    omega
  · split
    · exact ⟨hrem, hcur, by simp⟩
    · split
      · exact ⟨hrem, hcur, by simp⟩
      · next hdata => exact ⟨fun _ => osRest_lt_osLen hdata hcls, hcls, hcls⟩

theorem labelAction_good {par : Params} {p : Pipe} {q q' : PipelineState} (h : q.Good par p) (ha : labelAction par q = some q') :
    q'.Good par p := by
  obtain ⟨x, rest, _, _, rfl⟩ := labelAction_some ha
  obtain ⟨hrem, hcur, hos⟩ := labelHead_good x h.classifier
  have ⟨hpend, _⟩ := h.classifier
  refine h.setClassifier q.qRaw ⟨hpend, hrem, hcur⟩ (List.forall_mem_append.mpr ⟨h.classified, ?_⟩)
  exact List.forall_mem_singleton.mpr ⟨rfl, hos⟩

/-! ### Frame Filter: the writer -/

/-- An item of a frame is good where its flags and its timestamp are (30_encoding.md R106). -/
theorem fifoItem_good {x : ClassifiedTransfer} {k : FrameKind} {sof eof err : Bool} {ts : Word} (hk : k ≠ .none)
    (hts : sof = false → ts = 0) (herr : err = true → eof = true) : (fifoItem x k sof eof err ts).Good :=
  ⟨fun h => absurd h hk, hts, herr⟩

theorem fifoItem_none_good (x : ClassifiedTransfer) : (fifoItem x .none).Good :=
  ⟨fun _ => ⟨rfl, rfl⟩, fun _ => rfl, fun h => Bool.noConfusion h⟩

theorem PktKind.frameKind_ne_none (k : PktKind) : k.frameKind ≠ .none := by cases k <;> decide

/-- W_OS is good with a rest of 1 to 7 and an ordered-set kind (10_state.md R37). -/
theorem WState.good_os_iff {rem : Fin 8} {k : FrameKind} :
    (WState.os rem k).Good ↔ rem ≠ 0 ∧ k ∈ [FrameKind.skip, .fts, .ts1, .ts2] := by
  rw [WState.Good, Bool.and_eq_true, decide_eq_true_iff, decide_eq_true_iff]

/-- A set that opens a frame has more than one transfer, and a kind of its own. -/
theorem frameKindOfOs_some {os : OsType} {k : FrameKind} (h : frameKindOfOs os = some k) : (WState.os (osRest os) k).Good := by
  cases os with
  | skip | fts | ts1 | ts2 => cases h; decide
  | data | idle | compliance | modifiedCompliance => cases h

theorem WState.Good.kind_ne_none {rem : Fin 8} {k : FrameKind} (h : (WState.os rem k).Good) : k ≠ .none := by
  obtain ⟨_, hk⟩ := WState.good_os_iff.mp h
  rintro rfl
  simp at hk

section Writer

variable {par : Params} {f : FilterState} {x : ClassifiedTransfer} {clock : Word}

theorem FilterState.Good.enqueue {it : FifoItem} {w : WState} (h : f.Good par) (hroom : f.fifo.length < par.fifoDepth) (hit : it.Good)
    (hw : w.Good) : (f.enqueue it w).Good par where
  writer := hw
  reader := h.reader
  items := List.forall_mem_append.mpr ⟨h.items, List.forall_mem_singleton.mpr hit⟩
  room := by simpa [FilterState.enqueue] using hroom

theorem writeFind_good (h : f.Good par) (hroom : f.fifo.length < par.fifoDepth) : (writeFind clock x f).Good par := by
  unfold writeFind
  dsimp only
  split
  · next k hk =>
    have hos : frameKindOfOs x.os = some k := by
      split at hk
      · exact hk
      · cases hk
    have hw := frameKindOfOs_some hos
    exact h.enqueue hroom (fifoItem_good hw.kind_ne_none (by simp) (by simp)) hw
  · split
    · next k _ =>
      refine h.enqueue hroom (fifoItem_good k.frameKind_ne_none (by simp) (by simp)) ?_
      split <;> rfl
    · split
      · next k _ => exact h.enqueue hroom (fifoItem_good k.frameKind_ne_none (by simp) (by simp)) rfl
      · exact ⟨rfl, h.reader, h.items, h.room⟩

theorem writeOsBody_good {rem : Fin 8} {k : FrameKind} (h : f.Good par) (hroom : f.fifo.length < par.fifoDepth)
    (hw : (WState.os rem k).Good) : (writeOsBody x rem k f).Good par := by
  refine h.enqueue hroom (fifoItem_good hw.kind_ne_none (by simp) (by simp)) ?_
  obtain ⟨_, hk⟩ := WState.good_os_iff.mp hw
  split
  · rfl
  · next hone => exact WState.good_os_iff.mpr ⟨sub_ne_zero.mpr hone, hk⟩

theorem writePkt_good {timeout : Word} {k : PktKind} {c : Nat} (h : f.Good par) (hroom : f.fifo.length < par.fifoDepth) :
    (writePkt clock timeout x k c f).Good par := by
  have hitem {eof err : Bool} (herr : err = true → eof = true) : (fifoItem x k.frameKind (eof := eof) (err := err)).Good :=
    fifoItem_good k.frameKind_ne_none (fun _ => rfl) herr
  unfold writePkt
  dsimp only
  split
  · exact writeFind_good h hroom
  · split
    · exact h.enqueue hroom (hitem (by simp)) rfl
    · split
      · exact h.enqueue hroom (hitem (by simp)) rfl
      · exact h.enqueue hroom (hitem (by simp)) rfl

/-- A writer row keeps a good Filter good where the FIFO has room. -/
def WriterRowGood (par : Params) (row : Bank → ClassifiedTransfer → FilterState → Option FilterState) : Prop :=
  ∀ b x f f', f.Good par → f.fifo.length < par.fifoDepth → row b x f = some f' → f'.Good par

theorem findRow_good : WriterRowGood par (findRow clock) := by
  intro b x f f' h hroom hf
  unfold findRow at hf
  split at hf
  · cases hf
  · split at hf
    · cases hf; exact writeFind_good h hroom
    · cases hf; exact writeFind_good h hroom
    · cases hf
    · cases hf

theorem osBodyRow_good : WriterRowGood par osBodyRow := by
  intro b x f f' h hroom hf
  unfold osBodyRow at hf
  split at hf
  · cases hf
  · split at hf
    · next hw => cases hf; exact writeOsBody_good h hroom (hw ▸ h.writer)
    · cases hf
    · cases hf
    · cases hf

theorem pktRow_good : WriterRowGood par (pktRow clock) := by
  intro b x f f' h hroom hf
  unfold pktRow at hf
  split at hf
  · cases hf
  · split at hf
    · cases hf; exact writePkt_good h hroom
    · cases hf
    · cases hf
    · cases hf

theorem passRow_good : WriterRowGood par passRow := by
  intro b x f f' h hroom hf
  unfold passRow at hf
  split at hf
  · cases hf
  · cases hf; exact h.enqueue hroom (fifoItem_none_good x) rfl

theorem writerAction_good {p : Pipe} {row : Bank → ClassifiedTransfer → FilterState → Option FilterState} {q q' : PipelineState}
    (hrow : WriterRowGood par row) (h : q.Good par p) (ha : writerAction par row q = some q') : q'.Good par p := by
  obtain ⟨x, rest, f, hq, hroom, hf, rfl⟩ := writerAction_some ha
  have hcls := h.classified
  rw [hq] at hcls
  exact h.setFilter (List.forall_mem_of_forall_mem_cons hcls) (hrow _ _ _ _ h.filter hroom hf) h.emitted

end Writer

/-! ### Frame Filter: the reader -/

section Reader

variable {par : Params} {f : FilterState}

/-- Moving the reader, with the timestamp memory at any value. -/
theorem FilterState.Good.setReader {r : RState} (h : f.Good par) (hr : r.Good) (ts : Word) (valid : Bool) :
    FilterState.Good par { f with lastTs := ts, tsValid := valid, r := r } :=
  ⟨h.writer, hr, h.items, h.room⟩

theorem FilterState.Good.head {it : FifoItem} {rest : List FifoItem} (h : f.Good par) (hf : f.fifo = it :: rest) : it.Good :=
  h.items it (hf ▸ List.mem_cons_self)

theorem FilterState.Good.pop {it : FifoItem} {rest : List FifoItem} (h : f.Good par) (hf : f.fifo = it :: rest) :
    FilterState.Good par { f with fifo := rest } where
  writer := h.writer
  reader := h.reader
  items := fun x hx => h.items x (hf ▸ List.mem_cons_of_mem it hx)
  room := by
    have := h.room
    rw [hf, List.length_cons] at this
    exact Nat.le_of_succ_le this

/-- A payload item has no timestamp format to keep, and carries `err` only with `eof` (30_encoding.md R107). -/
theorem FifoItem.Good.payload {it : FifoItem} (h : it.Good) : it.payload.Good := by
  obtain ⟨_, _, herr⟩ := h
  exact ⟨fun hts => Bool.noConfusion hts, herr⟩

theorem tsItem_good (half : TsHalf) (ts : Word) (k : FrameKind) : (tsItem half ts k).Good :=
  ⟨fun _ => ⟨rfl, rfl, rfl, rfl⟩, fun h => Bool.noConfusion h⟩

/-- The first item of a frame has a kind. -/
theorem FifoItem.Good.kind_ne_none {it : FifoItem} (h : it.Good) (hsof : it.sof = true) : it.kind ≠ .none := by
  intro hk
  obtain ⟨hnone, _⟩ := h
  obtain ⟨hsof', _⟩ := hnone hk
  exact Bool.noConfusion (hsof'.symm.trans hsof)

theorem RState.good_read_iff {k : FrameKind} {en started : Bool} : (RState.read k en started).Good ↔ k ≠ .none := decide_eq_true_iff

theorem RState.good_tsi_iff {half : TsHalf} {ts : Word} {k : FrameKind} : (RState.tsi half ts k).Good ↔ k ≠ .none := decide_eq_true_iff

/-- A reader row leaves a good Filter and emits good items. -/
def ReaderRowGood (par : Params) (row : Bank → FilterState → Option ReadResult) : Prop :=
  ∀ b f f' out, f.Good par → row b f = some (f', out) → f'.Good par ∧ ∀ y ∈ out, y.Good

theorem readDisable_good (h : f.Good par) : (readDisable f).1.Good par ∧ ∀ y ∈ (readDisable f).2, y.Good :=
  ⟨h.setReader rfl _ _, by simp [readDisable]⟩

theorem readPass_good : ReaderRowGood par readPass := by
  intro b f f' out h hrow
  unfold readPass at hrow
  split at hrow
  · split at hrow
    · cases hrow; exact ⟨h.setReader rfl _ _, by simp⟩
    · split at hrow
      · cases hrow
      · next hf => cases hrow; exact ⟨h.pop hf, List.forall_mem_singleton.mpr (h.head hf).payload⟩
  · cases hrow
  · cases hrow
  · cases hrow

theorem readSelect_good : ReaderRowGood par readSelect := by
  intro b f f' out h hrow
  unfold readSelect at hrow
  split at hrow
  · split at hrow
    · cases hrow; exact readDisable_good h
    · split at hrow
      · cases hrow
      · next it rest hf =>
        split at hrow
        · cases hrow; exact ⟨h.pop hf, by simp⟩
        · next hsof =>
          cases hrow
          have hk : it.kind ≠ .none := (h.head hf).kind_ne_none (by simpa using hsof)
          refine ⟨h.setReader ?_ _ _, by simp⟩
          split
          · exact RState.good_tsi_iff.mpr hk
          · exact RState.good_read_iff.mpr hk
  · cases hrow
  · cases hrow
  · cases hrow

theorem readTsins_good : ReaderRowGood par readTsins := by
  intro b f f' out h hrow
  unfold readTsins at hrow
  split at hrow
  · next half ts k hr =>
    have hk : k ≠ .none := RState.good_tsi_iff.mp (hr ▸ h.reader)
    split at hrow
    · cases hrow; exact readDisable_good h
    · split at hrow
      · cases hrow; exact ⟨h.setReader (RState.good_tsi_iff.mpr hk) _ _, List.forall_mem_singleton.mpr (tsItem_good _ _ _)⟩
      · cases hrow; exact ⟨h.setReader (RState.good_read_iff.mpr hk) _ _, List.forall_mem_singleton.mpr (tsItem_good _ _ _)⟩
  · cases hrow
  · cases hrow
  · cases hrow

theorem readDrain_good : ReaderRowGood par readDrain := by
  intro b f f' out h hrow
  unfold readDrain at hrow
  split at hrow
  · next k en started hr =>
    have hk : k ≠ .none := RState.good_read_iff.mp (hr ▸ h.reader)
    split at hrow
    · cases hrow; exact readDisable_good h
    · split at hrow
      · cases hrow
      · next it rest hf =>
        split at hrow
        · cases hrow; exact ⟨h.setReader rfl _ _, by simp⟩
        · cases hrow
          refine ⟨(h.pop hf).setReader ?_ _ _, ?_⟩
          · split
            · rfl
            · exact RState.good_read_iff.mpr hk
          · split
            · exact List.forall_mem_singleton.mpr (h.head hf).payload
            · simp
  · cases hrow
  · cases hrow
  · cases hrow

theorem readerAction_good {p : Pipe} {row : Bank → FilterState → Option ReadResult} {q q' : PipelineState}
    (hrow : ReaderRowGood par row) (h : q.Good par p) (ha : readerAction row q = some q') : q'.Good par p := by
  obtain ⟨f, out, hf, rfl⟩ := readerAction_some ha
  obtain ⟨hflt, hout⟩ := hrow _ _ _ _ h.filter hf
  exact h.setFilter h.classified hflt (List.forall_mem_append.mpr ⟨h.emitted, hout⟩)

end Reader

/-! ### Trigger Engine -/

section Trigger

variable {par : Params} {tbl : List PatternEntry} {size n : Nat} {b0 b1 : SymByte}

theorem TriggerState.good_zero (par : Params) (st : TrigSt) : TriggerState.Good par { st := st, pa := 0, pu := 0 } :=
  ⟨Nat.zero_le _, Nat.zero_le _, rfl, .inl rfl, fun _ => ⟨rfl, rfl⟩⟩

/-- A track's comparison advances by the two entries of an item or starts again. -/
theorem matchPair_cases (tbl : List PatternEntry) (size n : Nat) (b0 b1 : SymByte) :
    matchPair tbl size n b0 b1 = n + 2 ∨ matchPair tbl size n b0 b1 = 0 := by
  unfold matchPair
  split
  · exact .inl rfl
  · exact .inr rfl

/-- The aligned pointer stays even (42_trigger.md R262). -/
theorem alignedTrack_even (h : n % 2 = 0) : alignedTrack tbl size n b0 b1 % 2 = 0 := by
  unfold alignedTrack
  rcases matchPair_cases tbl size n b0 b1 with hm | hm <;> rw [hm]
  omega

/-- The unaligned pointer stays 0 or odd (42_trigger.md R263). -/
theorem unalignedTrack_zero_or_odd (h : n = 0 ∨ n % 2 = 1) :
    unalignedTrack tbl size n b0 b1 = 0 ∨ unalignedTrack tbl size n b0 b1 % 2 = 1 := by
  unfold unalignedTrack
  split
  · split
    · exact .inr rfl
    · exact .inl rfl
  · rcases matchPair_cases tbl size n b0 b1 with hm | hm <;> omega

/-- While no track reaches the size, both pointers stay below it, and so within the table. -/
theorem matchItem_good {y : FiltOut} {t : TriggerState} (h : t.Good par) (hsize : size ≤ par.memSize) :
    (matchItem tbl size y t).1.Good par := by
  obtain ⟨_, _, hpa, hpu, _⟩ := h
  unfold matchItem
  dsimp only
  split
  · exact TriggerState.good_zero par _
  · split
    · exact TriggerState.good_zero par _
    · next hbelow =>
      obtain ⟨ha, hu⟩ := not_or.mp hbelow
      exact ⟨(Nat.lt_of_not_le ha).le.trans hsize, (Nat.lt_of_not_le hu).le.trans hsize, alignedTrack_even hpa,
        unalignedTrack_zero_or_odd hpu, fun hst => absurd rfl hst⟩

/-- The engine's state on an item while armed: a match starts from T_IDLE (42_trigger.md R264). -/
def TriggerState.armed (t : TriggerState) : TriggerState := if t.st = .idle then { st := .active, pa := 0, pu := 0 } else t

/-- All that the engine can do on an item: return to T_IDLE, match the item, or only be armed. -/
theorem triggerItem_cases (b : Bank) (tbl : List PatternEntry) (y : FiltOut) (t : TriggerState) :
    triggerItem b tbl y t = ({ st := .idle, pa := 0, pu := 0 }, false) ∨
    (y.isTs = false ∧ triggerItem b tbl y t = matchItem tbl b.trigSize.toNat y t.armed) ∨
    triggerItem b tbl y t = (t.armed, false) := by
  unfold triggerItem
  rw [← TriggerState.armed]
  dsimp only
  split
  · exact .inl rfl
  · split
    · next hmatch => exact .inr (.inl ⟨hmatch.2, rfl⟩)
    · exact .inr (.inr rfl)

theorem TriggerState.Good.armed {t : TriggerState} (h : t.Good par) : t.armed.Good par := by
  unfold TriggerState.armed
  split
  · exact TriggerState.good_zero par _
  · exact h

theorem triggerItem_good {b : Bank} {y : FiltOut} {t : TriggerState} (h : t.Good par) (hsize : b.trigSize.toNat ≤ par.memSize) :
    (triggerItem b tbl y t).1.Good par := by
  rcases triggerItem_cases b tbl y t with hidle | ⟨_, hmatch⟩ | harmed
  · rw [hidle]; exact TriggerState.good_zero par _
  · rw [hmatch]; exact matchItem_good h.armed hsize
  · rw [harmed]; exact h.armed

/-- No timestamp item fires the trigger (42_trigger.md R266). -/
theorem triggerItem_fires {b : Bank} {y : FiltOut} {t : TriggerState} (h : (triggerItem b tbl y t).2 = true) : y.isTs = false := by
  rcases triggerItem_cases b tbl y t with hidle | ⟨hts, _⟩ | harmed
  · rw [hidle] at h; cases h
  · exact hts
  · rw [harmed] at h; cases h

theorem trigAction_good {p : Pipe} {q q' : PipelineState} (h : q.Good par p) (ha : trigAction q = some q') : q'.Good par p := by
  obtain ⟨y, rest, hq, rfl⟩ := trigAction_some ha
  have hin := h.emitted
  rw [hq] at hin
  obtain ⟨hy, hrest⟩ := List.forall_mem_cons.mp hin
  refine h.setTrigger hrest (triggerItem_good h.trigger h.trigSize) (List.forall_mem_append.mpr ⟨h.forwarded, ?_⟩)
  exact List.forall_mem_singleton.mpr ⟨hy, triggerItem_fires⟩

end Trigger

/-! ### Recorder -/

section Recorder

variable {par : Params} {p : Pipe} {q : PipelineState} {i : TickInput}

/-- Only the cursor and the trigger address of the Recorder enter the invariant. -/
theorem PipelineState.Good.setRecorderCounts (h : q.Good par p) {r : RecorderState} (hcur : r.cursor = q.rcr.cursor)
    (haddr : r.trigAddr = q.rcr.trigAddr) : PipelineState.Good par p { q with rcr := r } :=
  h.setRecorder (hcur ▸ h.cursor) (haddr ▸ h.trigAddr) h.ring

theorem writeRecord_good (hv : par.Valid) (h : q.Good par p) (y : TrigOut) (tb : Bool) : (writeRecord par p y tb q).Good par p :=
  h.setRecorder (inRing_nextCursor hv h.cursor) h.trigAddr (h.ring.ringWrite h.cursor (pack_toNat_lt _ _ _))

theorem writeItem_good (hv : par.Valid) (h : q.Good par p) (y : Option TrigOut) : (writeItem par p y q).Good par p := by
  cases y with
  | none => exact h
  | some y => exact writeRecord_good hv h y false

theorem initCapture_good (hv : par.Valid) (h : q.Good par p) (st : RecSt) :
    PipelineState.Good par p { q with rcr := { initCapture par p q.rcr with st := st } } :=
  h.setRecorder (inRing_base hv p) (inRing_base hv p) h.ring

theorem markTrigger_good (h : q.Good par p) : (markTrigger q).Good par p :=
  h.setRecorder h.cursor h.cursor h.ring

theorem setRecSt_good (h : q.Good par p) (st : RecSt) : (setRecSt st q).Good par p := h.setRecorderCounts rfl rfl

theorem startPost_good (h : q.Good par p) (one : Bool) : (startPost one q).Good par p := h.setRecorderCounts rfl rfl

theorem enterPost_good (h : q.Good par p) : (enterPost q).Good par p := setRecSt_good h _

theorem extTrigger_good (hv : par.Valid) (h : q.Good par p) : (extTrigger par p i q).Good par p :=
  enterPost_good (startPost_good (writeItem_good hv (markTrigger_good h) _) _)

theorem ownTrigger_good (hv : par.Valid) (h : q.Good par p) (y : TrigOut) : (ownTrigger par p y q).Good par p :=
  enterPost_good (startPost_good (writeRecord_good hv (markTrigger_good h) _ _) _)

/-- A Recorder state's action keeps a good pipeline good. -/
def TickBodyGood (par : Params) (p : Pipe) (body : TickInput → PipelineState → PipelineState) : Prop :=
  ∀ i q, q.Good par p → (body i q).Good par p

theorem idleBody_good (hv : par.Valid) : TickBodyGood par p (idleBody par p) := by
  intro i q h
  unfold idleBody
  split
  · exact writeItem_good hv (initCapture_good hv h _) _
  · exact h

theorem preBody_good (hv : par.Valid) : TickBodyGood par p (preBody par p) := by
  intro i q h
  unfold preBody
  split
  · exact extTrigger_good hv h
  · exact (writeItem_good hv h i.y).setRecorderCounts rfl rfl

theorem waitBody_good (hv : par.Valid) : TickBodyGood par p (waitBody par p) := by
  intro i q h
  unfold waitBody
  split
  · split
    · exact ownTrigger_good hv h _
    · split
      · exact extTrigger_good hv h
      · exact writeRecord_good hv h _ _
  · split
    · exact extTrigger_good hv h
    · exact h

theorem postBody_good (hv : par.Valid) : TickBodyGood par p (postBody par p) :=
  fun i _ h => enterPost_good ((writeItem_good hv h i.y).setRecorderCounts rfl rfl)

theorem doneBody_good : TickBodyGood par p doneBody := fun _ _ h => h

theorem forcedBody_good (hv : par.Valid) : TickBodyGood par p (forcedBody par p) := by
  intro i q h
  unfold forcedBody
  split
  · exact writeItem_good hv h _
  · exact setRecSt_good h _

/-- Taking the tick's item off `q_trg` leaves the other items. -/
theorem tickItem_good {t : Tick} {y : Option TrigOut} {q1 : PipelineState} (h : q.Good par p) (ht : tickItem t q = some (y, q1)) :
    q1.Good par p := by
  unfold tickItem at ht
  split at ht
  · cases ht; exact h
  · split at ht
    · cases ht
    · next hq =>
      cases ht
      have hout := h.forwarded
      rw [hq] at hout
      exact h.setTrigger h.emitted h.trigger (List.forall_mem_of_forall_mem_cons hout)

theorem tickAction_good {sel : RecSt → Bool} {body : TickInput → PipelineState → PipelineState} {pf : Bool} {t : Tick}
    {q' : PipelineState} (hbody : TickBodyGood par p body) (h : q.Good par p) (ha : tickAction sel body pf t q = some q') :
    q'.Good par p := by
  obtain ⟨y, q1, _, hitem, _, rfl⟩ := tickAction_some ha
  exact (hbody _ _ (tickItem_good h hitem)).setRecorderCounts rfl rfl

end Recorder

end Sys2Proof.Machine
end

section
/-! PROOF. Every instruction, every command and every step keeps the invariant. -/

namespace Sys2Proof.Machine

open Sys2Proof.Config Host

/-- Where an outcome is a next state, that state meets the invariant. -/
def NextMeetsInv (o : Outcome State Fault Refusal) : Prop := ∀ t, o = .next t → t.Inv

theorem nextMeetsInv_next {t : State} (h : t.Inv) : NextMeetsInv (.next t) := by
  rintro _ ⟨⟩
  exact h

theorem nextMeetsInv_refused (r : Refusal) : NextMeetsInv (.refused r) := by
  rintro _ ⟨⟩

section Shapes

variable {s : State} {p : Pipe}

/-! ### The shapes of steps -/

theorem ignoredWrite_meetsInv (hs : s.Inv) : NextMeetsInv (ignoredWrite s) := nextMeetsInv_next hs

theorem hostRead_meetsInv (hs : s.Inv) (v : Word) : NextMeetsInv (hostRead v s) := nextMeetsInv_next hs

theorem hostWrite_meetsInv {f : PipelineState → PipelineState} (hs : s.Inv) (hf : (f (s.pipe p)).Good s.par p) :
    NextMeetsInv (hostWrite p f s) := nextMeetsInv_next (hs.setPipe hf)

/-- A write of the bank concerns the invariant in TRIG_SIZE alone. -/
theorem bankWrite_meetsInv {f : Bank → Bank} (hs : s.Inv) (hf : (f (s.pipe p).bank).trigSize.toNat ≤ s.par.memSize) :
    NextMeetsInv (bankWrite p f s) := hostWrite_meetsInv hs ((hs.pipe p).setBank hf (hs.pipe p).pattern)

theorem deliver_meetsInv (hs : s.Inv) (b : SymByte) : NextMeetsInv (deliver p b s) := by
  refine hostWrite_meetsInv hs ?_
  split
  · exact (hs.pipe p).setInput _ _
  · exact (hs.pipe p).setInput _ _

theorem agentStep_meetsInv {act : PipelineState → Option PipelineState} (hs : s.Inv)
    (hact : ∀ q', act (s.pipe p) = some q' → q'.Good s.par p) : NextMeetsInv (agentStep p act s) := by
  intro t ht
  rcases agentStep_next ht with ⟨_, rfl⟩ | ⟨q, hq, rfl⟩
  · exact hs
  · exact hs.setPipe (hact q hq)

theorem writerStep_meetsInv {row : Bank → ClassifiedTransfer → FilterState → Option FilterState} (hs : s.Inv)
    (hrow : WriterRowGood s.par row) : NextMeetsInv (agentStep p (writerAction s.par row) s) :=
  agentStep_meetsInv hs fun _ => writerAction_good hrow (hs.pipe p)

theorem readerStep_meetsInv {row : Bank → FilterState → Option ReadResult} (hs : s.Inv) (hrow : ReaderRowGood s.par row) :
    NextMeetsInv (agentStep p (readerAction row) s) :=
  agentStep_meetsInv hs fun _ => readerAction_good hrow (hs.pipe p)

theorem recorderStep_meetsInv {sel : RecSt → Bool} {body : TickInput → PipelineState → PipelineState} {t : Tick} (hs : s.Inv)
    (hbody : TickBodyGood s.par p body) : NextMeetsInv (recorderStep sel body p t s) :=
  agentStep_meetsInv hs fun _ => tickAction_good hbody (hs.pipe p)

/-! ### The host's commands with a condition -/

/-- START resets every stage of its pipeline and puts the cursor and the trigger address at BASE_P (45_host.md R400). -/
theorem startPipeline_good {par : Params} {q : PipelineState} (hv : par.Valid) (h : q.Good par p) : (startPipeline par p q).Good par p :=
  have hcls : ClassifierState.reset.Good := by decide
  have hnil {α : Type} {P : α → Prop} : ∀ x ∈ ([] : List α), P x := List.forall_mem_nil P
  (((initCapture_good hv h _).setClassifier q.qRaw hcls hnil).setFilter hnil (FilterState.good_reset par) hnil).setTrigger hnil
    (TriggerState.good_zero par .idle) hnil

theorem execStart_meetsInv (hs : s.Inv) (v : Word) : NextMeetsInv (execStart p v s) := by
  unfold execStart
  split
  · exact hostWrite_meetsInv hs (startPipeline_good hs.valid (hs.pipe p))
  · exact ignoredWrite_meetsInv hs

theorem execStop_meetsInv (hs : s.Inv) (v : Word) : NextMeetsInv (execStop p v s) := by
  unfold execStop
  split
  · exact hostWrite_meetsInv hs (setRecSt_good (hs.pipe p) _)
  · exact ignoredWrite_meetsInv hs

theorem execWrPattern_meetsInv (hs : s.Inv) (i : Byte) (v : Word) : NextMeetsInv (execWrPattern p i v s) := by
  unfold execWrPattern
  split
  · exact hostWrite_meetsInv hs ((hs.pipe p).setBank (hs.pipe p).trigSize (List.length_set.trans (hs.pipe p).pattern))
  · exact ignoredWrite_meetsInv hs

theorem execWrTrigSize_meetsInv (hs : s.Inv) (v : Word) : NextMeetsInv (execWrTrigSize p v s) := by
  unfold execWrTrigSize
  split
  · exact nextMeetsInv_refused _
  · next hle =>
    refine bankWrite_meetsInv hs ?_
    rw [BitVec.extractLsb'_toNat, Nat.shiftRight_zero]
    exact (Nat.mod_le _ _).trans (Nat.le_of_not_lt hle)

end Shapes

/-! ### Instructions, commands and steps -/

theorem exec_meetsInv (i : Instr) {s : State} (hs : s.Inv) : NextMeetsInv (exec i s) := by
  have hv := hs.valid
  cases i with
  | wrFilterEnable p _ | wrFilterConfig p _ | wrTlpDllpTimeout p _ | wrTrigArmed p _ | wrRecMode p _ | wrRecOffset p _
  | wrRecSize p _ =>
    dsimp only [exec, execWrFilterEnable, execWrFilterConfig, execWrTlpDllpTimeout, execWrTrigArmed, execWrRecMode, execWrRecOffset,
      execWrRecSize]
    exact bankWrite_meetsInv hs (hs.pipe p).trigSize
  | wrTrigSize p v => exact execWrTrigSize_meetsInv hs v
  | wrPattern p k v => exact execWrPattern_meetsInv hs k v
  | rdFilterEnable p | rdFilterConfig p | rdTlpDllpTimeout p | rdTrigArmed p | rdTrigSize p | rdRecMode p | rdRecOffset p
  | rdRecSize p | rdPattern p _ | rdStatusTriggered p | rdStatusFinished p | rdStatusTrigAddr p | rdStatusState p | rdGeomBase p
  | rdGeomLength p | rdGeomChunk p | rdGeomStep p | rdRecStart p | rdRecStop p => exact hostRead_meetsInv hs _
  | start p v => exact execStart_meetsInv hs v
  | stop p v => exact execStop_meetsInv hs v
  | wrStatusTriggered p _ | wrStatusFinished p _ | wrStatusTrigAddr p _ | wrStatusState p _ | wrGeomBase p _ | wrGeomLength p _
  | wrGeomChunk p _ | wrGeomStep p _ => exact ignoredWrite_meetsInv hs
  | com p | skp p | fts p | idl p | stp p | sdp p | endSym p | d215 p | d102 p | d52 p | kOther p _ | dOther p _ =>
    exact deliver_meetsInv hs _
  | align p => exact agentStep_meetsInv hs fun _ => alignAction_good (hs.pipe p)
  | label p => exact agentStep_meetsInv hs fun _ => labelAction_good (hs.pipe p)
  | filtWriteFind p => exact writerStep_meetsInv hs findRow_good
  | filtWriteOsbody p => exact writerStep_meetsInv hs osBodyRow_good
  | filtWritePkt p => exact writerStep_meetsInv hs pktRow_good
  | filtWritePass p => exact writerStep_meetsInv hs passRow_good
  | filtReadPass p => exact readerStep_meetsInv hs readPass_good
  | filtReadSelect p => exact readerStep_meetsInv hs readSelect_good
  | filtReadTsins p => exact readerStep_meetsInv hs readTsins_good
  | filtReadDrain p => exact readerStep_meetsInv hs readDrain_good
  | trig p => exact agentStep_meetsInv hs fun _ => trigAction_good (hs.pipe p)
  | recTickIdle p t => exact recorderStep_meetsInv hs (idleBody_good hv)
  | recTickPre p t => exact recorderStep_meetsInv hs (preBody_good hv)
  | recTickWait p t => exact recorderStep_meetsInv hs (waitBody_good hv)
  | recTickPost p t => exact recorderStep_meetsInv hs (postBody_good hv)
  | recTickDoneAbort p t => exact recorderStep_meetsInv hs doneBody_good
  | recTickForced p t => exact recorderStep_meetsInv hs (forcedBody_good hv)
  | clock => exact nextMeetsInv_next hs

theorem runCommand_meetsInv (c : Command) {s : State} (hs : s.Inv) : NextMeetsInv (runCommand c s) := by
  cases c with
  | instr i => exact exec_meetsInv i hs
  | agent p a => exact exec_meetsInv (selectRow p a s) hs
  | reservedWrite p off v => exact ignoredWrite_meetsInv hs
  | reservedRead p off => exact hostRead_meetsInv hs 0

theorem runWord_meetsInv (w : CmdWord) {s : State} (hs : s.Inv) : NextMeetsInv (runWord w s) := by
  unfold runWord
  split
  · exact runCommand_meetsInv _ hs
  · exact nextMeetsInv_refused _

theorem systemStep_meetsInv {s : State} (hs : s.Inv) : NextMeetsInv (systemStep s) := by
  cases hsched : s.sched with
  | nil => rw [systemStep, fetch_nil hsched]; exact nextMeetsInv_next hs
  | cons w rest =>
    have hrest : State.Inv { s with sched := rest } := hs
    rw [systemStep, fetch_cons hsched]
    exact runWord_meetsInv w hrest

theorem step_meetsInv {s : State} (hs : s.Inv) : NextMeetsInv (step s) := by
  unfold step
  split
  · exact systemStep_meetsInv hs
  · exact nextMeetsInv_refused _

/-- Settles O9: a step is one command on a state that differs in its schedule alone, a command is at most one instruction, and an
instruction replaces one pipeline by a good one. -/
theorem everyStepKeepsTheInvariant : Obligations.EveryStepKeepsTheInvariant :=
  fun _ t hs ht => step_meetsInv hs t ht

end Sys2Proof.Machine
end

section
/-! PROOF. What one command does to the rings: at most one record write each, and none where the pipeline captures neither before nor
after it (20_memory.md R75, R78). -/

namespace Sys2Proof.Machine

open Sys2Proof.Config Host

/-! ### A step of one pipeline -/

/-- A ring after at most one record write (R78). -/
def AtMostOneWrite (m m' : Memory) : Prop := m' = m ∨ ∃ a w, m' = ringWrite m a w

/-- What a step of a pipeline may do to its ring. The write of a step that leaves IDLE for FORCED (43_recorder.md R305) is why `kept` looks
at the state after the step too. -/
structure RingStep (q q' : PipelineState) : Prop where
  atMostOneWrite : AtMostOneWrite q.ring q'.ring
  kept : isCapturing q.rcr = false → isCapturing q'.rcr = false → q'.ring = q.ring

section Pipeline

variable {q q' : PipelineState}

theorem RingStep.of_ring_eq (h : q'.ring = q.ring) : RingStep q q' := ⟨.inl h, fun _ _ => h⟩

theorem RingStep.of_capturing_before (hc : isCapturing q.rcr = true) (h : AtMostOneWrite q.ring q'.ring) : RingStep q q' :=
  ⟨h, fun hn _ => absurd (hc.symm.trans hn) (by decide)⟩

theorem RingStep.of_capturing_after (hc : isCapturing q'.rcr = true) (h : AtMostOneWrite q.ring q'.ring) : RingStep q q' :=
  ⟨h, fun _ hn => absurd (hc.symm.trans hn) (by decide)⟩

/-- Capturing is a matter of `rec.st` alone (10_state.md R56). -/
theorem isCapturing_congr {r r' : RecorderState} (h : r.st = r'.st) : isCapturing r = isCapturing r' := by simp only [isCapturing, h]

theorem isCapturing_eq_false_iff (r : RecorderState) : isCapturing r = false ↔ r.st ∈ [RecSt.done, .abort, .idle] := by
  obtain ⟨st⟩ := r
  cases st <;> simp [isCapturing]

/-- What the step does to the ring is a matter of `ring` and `rec.st` alone, on both sides. -/
theorem RingStep.congr {u u' : PipelineState} (h : RingStep u u') (hr : u.ring = q.ring) (hs : u.rcr.st = q.rcr.st)
    (hr' : q'.ring = u'.ring) (hs' : q'.rcr.st = u'.rcr.st) : RingStep q q' where
  atMostOneWrite := by rw [hr', ← hr]; exact h.atMostOneWrite
  kept hq hq' := by
    rw [hr', ← hr]
    exact h.kept ((isCapturing_congr hs).trans hq) ((isCapturing_congr hs').symm.trans hq')

end Pipeline

/-! ### The Recorder's ticks -/

section Recorder

variable (par : Params) (p : Pipe) (i : TickInput) (q : PipelineState)

theorem writeRecord_atMostOneWrite (y : TrigOut) (tb : Bool) : AtMostOneWrite q.ring (writeRecord par p y tb q).ring :=
  .inr ⟨_, _, writeRecord_ring par p y tb q⟩

theorem writeItem_atMostOneWrite (y : Option TrigOut) : AtMostOneWrite q.ring (writeItem par p y q).ring := by
  cases y with
  | none => exact .inl rfl
  | some y => exact writeRecord_atMostOneWrite par p q y false

theorem writeItem_st (y : Option TrigOut) : (writeItem par p y q).rcr.st = q.rcr.st := by cases y <;> rfl

/-- EXT_TRIGGER writes the tick's item and nothing else (R307). -/
theorem extTrigger_atMostOneWrite : AtMostOneWrite q.ring (extTrigger par p i q).ring :=
  writeItem_atMostOneWrite par p (markTrigger q) i.y

/-- The own trigger writes its record and nothing else (R307). -/
theorem ownTrigger_atMostOneWrite (y : TrigOut) : AtMostOneWrite q.ring (ownTrigger par p y q).ring :=
  writeRecord_atMostOneWrite par p (markTrigger q) y true

theorem preBody_atMostOneWrite : AtMostOneWrite q.ring (preBody par p i q).ring := by
  unfold preBody
  split
  · exact extTrigger_atMostOneWrite par p i q
  · exact writeItem_atMostOneWrite par p q i.y

theorem waitBody_atMostOneWrite : AtMostOneWrite q.ring (waitBody par p i q).ring := by
  unfold waitBody
  split
  · split
    · exact ownTrigger_atMostOneWrite par p q _
    · split
      · exact extTrigger_atMostOneWrite par p i q
      · exact writeRecord_atMostOneWrite par p q _ false
  · split
    · exact extTrigger_atMostOneWrite par p i q
    · exact .inl rfl

theorem postBody_atMostOneWrite : AtMostOneWrite q.ring (postBody par p i q).ring := writeItem_atMostOneWrite par p q i.y

theorem forcedBody_atMostOneWrite : AtMostOneWrite q.ring (forcedBody par p i q).ring := by
  unfold forcedBody
  split
  · exact writeItem_atMostOneWrite par p q i.y
  · exact .inl rfl

/-- The action of a tick in IDLE writes only where it enters FORCED (R305). -/
theorem idleBody_ringStep : RingStep q (idleBody par p i q) := by
  unfold idleBody
  split
  · exact .of_capturing_after (isCapturing_congr (r' := { q.rcr with st := .forced }) (writeItem_st par p _ i.y))
      (writeItem_atMostOneWrite par p _ i.y)
  · exact .of_ring_eq rfl

variable {i q}

/-- The tick's item is all that is taken before the state's action (R300). -/
theorem tickItem_kept {t : Tick} {y : Option TrigOut} {q1 : PipelineState} (h : tickItem t q = some (y, q1)) :
    q1.ring = q.ring ∧ q1.rcr = q.rcr := by
  unfold tickItem at h
  split at h
  · cases h; exact ⟨rfl, rfl⟩
  · split at h
    · cases h
    · cases h; exact ⟨rfl, rfl⟩

/-- The tick around the action changes neither `ring` nor `rec.st`. -/
theorem tickAction_ringStep {sel : RecSt → Bool} {body : TickInput → PipelineState → PipelineState} {pf : Bool} {t : Tick}
    {q' : PipelineState} (hbody : ∀ i u, sel u.rcr.st = true → RingStep u (body i u)) (h : tickAction sel body pf t q = some q') :
    RingStep q q' := by
  obtain ⟨y, q1, hsel, hitem, _, rfl⟩ := tickAction_some h
  obtain ⟨hring, hrcr⟩ := tickItem_kept hitem
  exact (hbody _ q1 (by rw [hrcr]; exact hsel)).congr hring (by rw [hrcr]) rfl (shiftForce_st _ _ _)

end Recorder

/-! ### Commands -/

/-- Where an outcome of `s` is a next state, each ring took such a step to it. -/
def NextStepsRings (s : State) (o : Outcome State Fault Refusal) : Prop := ∀ t, o = .next t → ∀ r, RingStep (s.pipe r) (t.pipe r)

section Shapes

variable {s : State} {p : Pipe}

theorem nextStepsRings_of_pipe_eq {t : State} (h : ∀ r, t.pipe r = s.pipe r) : NextStepsRings s (.next t) := by
  rintro _ ⟨⟩ r
  exact .of_ring_eq (by rw [h r])

theorem nextStepsRings_refused (e : Refusal) : NextStepsRings s (.refused e) := by
  rintro _ ⟨⟩

/-- The peer's ring is out of reach (44_pipeline.md R363). -/
theorem nextStepsRings_setPipe {q : PipelineState} (h : RingStep (s.pipe p) q) : NextStepsRings s (.next (s.setPipe p q)) := by
  rintro _ ⟨⟩ r
  by_cases hr : r = p
  · subst hr; rw [State.setPipe_pipe]; exact h
  · exact .of_ring_eq (by rw [State.setPipe_pipe_of_ne s q hr])

theorem ignoredWrite_stepsRings : NextStepsRings s (ignoredWrite s) := nextStepsRings_of_pipe_eq fun _ => rfl

theorem hostRead_stepsRings (v : Word) : NextStepsRings s (hostRead v s) := nextStepsRings_of_pipe_eq (State.withHostRd_pipe s v)

theorem hostWrite_stepsRings {f : PipelineState → PipelineState} (h : (f (s.pipe p)).ring = (s.pipe p).ring) :
    NextStepsRings s (hostWrite p f s) := nextStepsRings_setPipe (.of_ring_eq h)

theorem bankWrite_stepsRings (f : Bank → Bank) : NextStepsRings s (bankWrite p f s) := hostWrite_stepsRings rfl

theorem deliver_stepsRings (b : SymByte) : NextStepsRings s (deliver p b s) := by
  refine hostWrite_stepsRings ?_
  split <;> rfl

theorem agentStep_stepsRings {act : PipelineState → Option PipelineState}
    (hact : ∀ q', act (s.pipe p) = some q' → RingStep (s.pipe p) q') : NextStepsRings s (agentStep p act s) := by
  intro t ht
  rcases agentStep_next ht with ⟨_, rfl⟩ | ⟨q, hq, rfl⟩
  · exact nextStepsRings_of_pipe_eq (fun _ => rfl) _ rfl
  · exact nextStepsRings_setPipe (hact q hq) _ rfl

theorem writerStep_stepsRings (row : Bank → ClassifiedTransfer → FilterState → Option FilterState) :
    NextStepsRings s (agentStep p (writerAction s.par row) s) := agentStep_stepsRings fun _ h => by
  obtain ⟨_, _, _, _, _, _, rfl⟩ := writerAction_some h
  exact .of_ring_eq rfl

theorem readerStep_stepsRings (row : Bank → FilterState → Option ReadResult) :
    NextStepsRings s (agentStep p (readerAction row) s) := agentStep_stepsRings fun _ h => by
  obtain ⟨_, _, _, rfl⟩ := readerAction_some h
  exact .of_ring_eq rfl

theorem recorderStep_stepsRings {sel : RecSt → Bool} {body : TickInput → PipelineState → PipelineState} {t : Tick}
    (hbody : ∀ i u, sel u.rcr.st = true → RingStep u (body i u)) : NextStepsRings s (recorderStep sel body p t s) :=
  agentStep_stepsRings fun _ => tickAction_ringStep hbody

/-- The row of one capturing state may write at every tick. -/
theorem capturingRow_stepsRings {st : RecSt} {body : TickInput → PipelineState → PipelineState} {t : Tick}
    (hst : st ∉ [RecSt.done, .abort, .idle]) (hbody : ∀ i u, AtMostOneWrite u.ring (body i u).ring) :
    NextStepsRings s (recorderStep (fun x => x == st) body p t s) :=
  recorderStep_stepsRings fun i u hu => .of_capturing_before
    (by rwa [← Bool.not_eq_false, isCapturing_eq_false_iff, eq_of_beq hu]) (hbody i u)

/-- START, STOP and WR PATTERN are such a write under a condition on their operands, and ignored otherwise. -/
theorem conditionalWrite_stepsRings {c : Prop} [Decidable c] {f : PipelineState → PipelineState}
    (h : (f (s.pipe p)).ring = (s.pipe p).ring) : NextStepsRings s (if c then hostWrite p f s else ignoredWrite s) := by
  split
  · exact hostWrite_stepsRings h
  · exact ignoredWrite_stepsRings

theorem execWrTrigSize_stepsRings (v : Word) : NextStepsRings s (execWrTrigSize p v s) := by
  unfold execWrTrigSize
  split
  · exact nextStepsRings_refused _
  · exact bankWrite_stepsRings _

end Shapes

theorem exec_stepsRings (i : Instr) (s : State) : NextStepsRings s (exec i s) := by
  cases i with
  | wrFilterEnable p _ | wrFilterConfig p _ | wrTlpDllpTimeout p _ | wrTrigArmed p _ | wrRecMode p _ | wrRecOffset p _
  | wrRecSize p _ =>
    dsimp only [exec, execWrFilterEnable, execWrFilterConfig, execWrTlpDllpTimeout, execWrTrigArmed, execWrRecMode, execWrRecOffset,
      execWrRecSize]
    exact bankWrite_stepsRings _
  | wrTrigSize p v => exact execWrTrigSize_stepsRings v
  | rdFilterEnable p | rdFilterConfig p | rdTlpDllpTimeout p | rdTrigArmed p | rdTrigSize p | rdRecMode p | rdRecOffset p
  | rdRecSize p | rdPattern p _ | rdStatusTriggered p | rdStatusFinished p | rdStatusTrigAddr p | rdStatusState p | rdGeomBase p
  | rdGeomLength p | rdGeomChunk p | rdGeomStep p | rdRecStart p | rdRecStop p => exact hostRead_stepsRings _
  | start p _ | stop p _ | wrPattern p _ _ => exact conditionalWrite_stepsRings rfl
    | wrStatusTriggered p _ | wrStatusFinished p _ | wrStatusTrigAddr p _ | wrStatusState p _ | wrGeomBase p _ | wrGeomLength p _
  | wrGeomChunk p _ | wrGeomStep p _ => exact ignoredWrite_stepsRings
  | com p | skp p | fts p | idl p | stp p | sdp p | endSym p | d215 p | d102 p | d52 p | kOther p _ | dOther p _ =>
    exact deliver_stepsRings _
  | align p =>
    refine agentStep_stepsRings fun _ h => ?_
    obtain ⟨_, _, _, _, _, rfl⟩ := alignAction_some h
    exact .of_ring_eq rfl
  | label p =>
    refine agentStep_stepsRings fun _ h => ?_
    obtain ⟨_, _, _, _, rfl⟩ := labelAction_some h
    exact .of_ring_eq rfl
  | filtWriteFind p | filtWriteOsbody p | filtWritePkt p | filtWritePass p => exact writerStep_stepsRings _
  | filtReadPass p | filtReadSelect p | filtReadTsins p | filtReadDrain p => exact readerStep_stepsRings _
  | trig p =>
    refine agentStep_stepsRings fun _ h => ?_
    obtain ⟨_, _, _, rfl⟩ := trigAction_some h
    exact .of_ring_eq rfl
  | recTickIdle p t => exact recorderStep_stepsRings fun i u _ => idleBody_ringStep s.par p i u
  | recTickPre p t => exact capturingRow_stepsRings (by decide) (preBody_atMostOneWrite s.par p)
  | recTickWait p t => exact capturingRow_stepsRings (by decide) (waitBody_atMostOneWrite s.par p)
  | recTickPost p t => exact capturingRow_stepsRings (by decide) (postBody_atMostOneWrite s.par p)
  | recTickDoneAbort p t => exact recorderStep_stepsRings fun _ _ _ => .of_ring_eq rfl
  | recTickForced p t => exact capturingRow_stepsRings (by decide) (forcedBody_atMostOneWrite s.par p)
  | clock => exact nextStepsRings_of_pipe_eq (State.withClock_pipe s _)

theorem runCommand_stepsRings (c : Command) (s : State) : NextStepsRings s (runCommand c s) := by
  cases c with
  | instr i => exact exec_stepsRings i s
  | agent p a => exact exec_stepsRings (selectRow p a s) s
  | reservedWrite p off v => exact ignoredWrite_stepsRings
  | reservedRead p off => exact hostRead_stepsRings 0

end Sys2Proof.Machine
end

section
/-! PROOF. What a host that reads ring memory during a run sees (20_memory.md R75, R78 to R80). -/

namespace Sys2Proof.Machine

open Sys2Proof.Config Host

section Run

variable {cmd : Nat → Command} {st : Nat → State} {p : Pipe} {reads : Nat → Prop}

theorem IsRun.ringStep (h : IsRun cmd st) (p : Pipe) (n : Nat) : RingStep ((st n).pipe p) ((st (n + 1)).pipe p) :=
  runCommand_stepsRings (cmd n) (st n) _ (h n) p

/-- A ring is fixed for as long as its pipeline does not capture. -/
theorem IsRun.ring_eq_of_not_capturing (h : IsRun cmd st) {f n : Nat} (hfn : f ≤ n)
    (hc : ∀ k, f ≤ k → k ≤ n → isCapturing ((st k).pipe p).rcr = false) : ((st n).pipe p).ring = ((st f).pipe p).ring := by
  induction n, hfn using Nat.le_induction with
  | base => rfl
  | succ n hfn ih =>
    calc ((st (n + 1)).pipe p).ring
        = ((st n).pipe p).ring := (h.ringStep p n).kept (hc n hfn n.le_succ) (hc (n + 1) (hfn.trans n.le_succ) le_rfl)
      _ = ((st f).pipe p).ring := ih fun k hfk hkn => hc k hfk (hkn.trans n.le_succ)

/-- The view of a host to which, while `p` captures, no write from step `m` on has become visible up to step `n`. -/
def laggingView (st : Nat → State) (p : Pipe) (m n k : Nat) : Nat :=
  if k ≤ n ∧ isCapturing ((st k).pipe p).rcr = true then min k m else k

/-- All that the lagging view can be. -/
theorem laggingView_cases (st : Nat → State) (p : Pipe) (m n k : Nat) :
    (k ≤ n ∧ isCapturing ((st k).pipe p).rcr = true ∧ laggingView st p m n k = min k m) ∨
    ((k ≤ n → isCapturing ((st k).pipe p).rcr = false) ∧ laggingView st p m n k = k) := by
  unfold laggingView
  split
  · next h => exact .inl ⟨h.1, h.2, rfl⟩
  · next h => exact .inr ⟨fun hk => Bool.eq_false_iff.mpr fun hc => h ⟨hk, hc⟩, rfl⟩

theorem laggingView_last {m n : Nat} (hmn : m ≤ n) (hc : isCapturing ((st n).pipe p).rcr = true) : laggingView st p m n n = m := by
  rw [laggingView, if_pos ⟨le_rfl, hc⟩, min_eq_right hmn]

/-- The lagging view is allowed where it hides neither what the host has been told is finished nor what it has found (R79, R80). -/
theorem ringView_laggingView {m n : Nat} (hcn : isCapturing ((st n).pipe p).rcr = true)
    (hobs : ∀ f, f < n → ObservesFinishedAt cmd st p f → f ≤ m)
    (hfound : ∀ k, k < n → reads k → isCapturing ((st k).pipe p).rcr = false → k ≤ m) :
    RingView cmd st p reads (laggingView st p m n) := by
  refine ⟨fun k => ?_, fun k hk => ?_, fun f k hfk hf => ?_, fun a b hab ha _ => ?_⟩
  · rcases laggingView_cases st p m n k with ⟨_, _, hv⟩ | ⟨_, hv⟩ <;> omega
  · rcases laggingView_cases st p m n k with ⟨_, hc, _⟩ | ⟨_, hv⟩
    · exact absurd (hc.symm.trans hk) (by decide)
    · exact hv
  · rcases laggingView_cases st p m n k with ⟨hkn, _, hv⟩ | ⟨_, hv⟩
    · have := hobs f (by omega) hf
      omega
    · omega
  · rcases laggingView_cases st p m n b with ⟨hbn, _, hb⟩ | ⟨_, hb⟩ <;>
      rcases laggingView_cases st p m n a with ⟨_, _, hva⟩ | ⟨hca, hva⟩
    · omega
    · have hne : a ≠ n := fun h => absurd (hcn.symm.trans (h ▸ hca (hab.trans hbn))) (by decide)
      have := hfound a (by omega) ha (hca (by omega))
      omega
    · omega
    · omega

/-- Where the host sees a ring that equals `r`, it reads the records of `r`. -/
theorem hostRingRead_of_ring_eq {m r : Memory} (h : m = r) (a : Nat) :
    hostRingRead p m a = hostRingRead p r a ∧ ∀ w, ringRead r a = some w → hostRingRead p m a = w := by
  subst h
  exact ⟨rfl, fun _ => hostRingRead_written p⟩

/-- A host read is a matter of the record at its address alone. -/
theorem hostRingRead_congr {m r : Memory} {a : Nat} (h : ringRead m a = ringRead r a) : hostRingRead p m a = hostRingRead p r a := by
  rw [hostRingRead, h, hostRingRead]

end Run

/-- Settles O60: a step writes at most once, a lagging view stands at every step it is allowed to, and a ring is fixed while its
pipeline does not capture. -/
theorem hostReadsSeeAPrefixUntilFinishedIsObserved : Obligations.HostReadsSeeAPrefixUntilFinishedIsObserved := by
  intro cmd st p reads hrun
  refine ⟨fun n => (hrun.ringStep p n).atMostOneWrite, fun m n hmn hc hobs hfound => ?_, fun view n a hview hc => ?_,
    fun view f n hview hfn hf => ⟨fun hst a => ?_, fun a hkept => ?_⟩⟩
  · exact ⟨laggingView st p m n, ringView_laggingView hc hobs hfound, laggingView_last hmn hc⟩
  · obtain ⟨_, hnow, _, _⟩ := hview
    exact hostRingRead_of_ring_eq (by rw [hnow n hc]) a
  · obtain ⟨_, hnow, _, _⟩ := hview
    have hc : ∀ k, f ≤ k → k ≤ n → isCapturing ((st k).pipe p).rcr = false := fun k hfk hkn =>
      (isCapturing_eq_false_iff _).mpr (hst k hfk hkn)
    rw [hnow n (hc n hfn.le le_rfl)]
    exact hostRingRead_of_ring_eq (hrun.ring_eq_of_not_capturing hfn.le hc) a
  · obtain ⟨hpast, _, hseen, _⟩ := hview
    exact hostRingRead_congr (hkept (view n) (hseen f n hfn hf) (hpast n))

end Sys2Proof.Machine
end

section
/-! PROOF. What each format's decoder accepts: the slices of a word as numbers, one equivalence per format, and all formats together as
the relation `Denotes`. -/

namespace Sys2Proof

/-! ### Slices of a word -/

/-- A slice as a quotient and remainder. -/
theorem extractLsb'_eq_iff {n start len : Nat} {x : BitVec n} {y : BitVec len} :
    x.extractLsb' start len = y ↔ x.toNat / 2 ^ start % 2 ^ len = y.toNat := by
  rw [← BitVec.toNat_inj, BitVec.extractLsb'_toNat, Nat.shiftRight_eq_div_pow]

theorem extractLsb'_eq_zero_iff {n start len : Nat} {x : BitVec n} :
    x.extractLsb' start len = 0 ↔ x.toNat / 2 ^ start % 2 ^ len = 0 := by
  rw [extractLsb'_eq_iff]
  rfl

/-- A word below `2 ^ m` is its own lower `m` bits, extended. -/
theorem eq_setWidth_extractLsb' {m n : Nat} {x : BitVec n} (h : x.toNat < 2 ^ m) : x = (x.extractLsb' 0 m).setWidth n := by
  apply BitVec.eq_of_toNat_eq
  rw [BitVec.toNat_setWidth, BitVec.extractLsb'_toNat, Nat.shiftRight_zero, Nat.mod_eq_of_lt h, Nat.mod_eq_of_lt x.isLt]

/-- The lower bits of an extended word. -/
theorem extractLsb'_setWidth_self {m n : Nat} (x : BitVec m) (h : m ≤ n) : (x.setWidth n).extractLsb' 0 m = x := by
  rw [BitVec.extractLsb'_setWidth_of_le (by omega), BitVec.extractLsb'_eq_self]

/-! ### One decoder per format -/

theorem decodeAccess_eq_ok_iff {f : CmdFields} {select : BitVec 12 → Command} {c : Command} :
    decodeAccess f select = .ok c ↔
      ∃ off : BitVec 12, off.toNat % 4 = 0 ∧ f.width = 0 ∧ f.code = off.setWidth 16 ∧ c = select off := by
  constructor
  · intro h
    unfold decodeAccess at h
    split at h
    · cases h
    · split at h
      · cases h
      · split at h
        · cases h
        · next hwidth haligned hbank =>
          rw [not_not, extractLsb'_eq_zero_iff] at haligned hbank
          refine ⟨_, ?_, not_not.mp hwidth, eq_setWidth_extractLsb' (by omega), (Except.ok.inj h).symm⟩
          rw [BitVec.extractLsb'_toNat, Nat.shiftRight_zero]
          omega
  · rintro ⟨off, haligned, hwidth, hcode, rfl⟩
    have hoff : f.code.toNat = off.toNat := by rw [hcode, BitVec.toNat_setWidth_of_le (by decide)]
    have hlow : f.code.extractLsb' 0 2 = 0 := extractLsb'_eq_zero_iff.mpr (by omega)
    have hhigh : f.code.extractLsb' 12 4 = 0 := extractLsb'_eq_zero_iff.mpr (by omega)
    have hself : f.code.extractLsb' 0 12 = off := by rw [hcode, extractLsb'_setWidth_self off (by decide)]
    simp [decodeAccess, hwidth, hlow, hhigh, hself]

theorem decodeSymbol_eq_ok_iff {f : CmdFields} {c : Command} :
    decodeSymbol f = .ok c ↔
      ∃ w : BitVec 9, f.width = 0 ∧ f.value = 0 ∧ f.code = w.setWidth 16 ∧ c = .instr (symbolInstr (pipeOfBit f.pipe) w) := by
  constructor
  · intro h
    unfold decodeSymbol at h
    split at h
    · cases h
    · split at h
      · cases h
      · next hstray hcode =>
        obtain ⟨hwidth, hvalue⟩ := not_or.mp hstray
        rw [not_not, extractLsb'_eq_zero_iff] at hcode
        exact ⟨_, not_not.mp hwidth, not_not.mp hvalue, eq_setWidth_extractLsb' (by omega), (Except.ok.inj h).symm⟩
  · rintro ⟨w, hwidth, hvalue, hcode, rfl⟩
    have hw : f.code.toNat = w.toNat := by rw [hcode, BitVec.toNat_setWidth_of_le (by decide)]
    have hhigh : f.code.extractLsb' 9 7 = 0 := extractLsb'_eq_zero_iff.mpr (by omega)
    have hself : f.code.extractLsb' 0 9 = w := by rw [hcode, extractLsb'_setWidth_self w (by decide)]
    simp [decodeSymbol, hwidth, hvalue, hhigh, hself]

theorem tickOfValue_eq_some_iff {v : Word} {t : Tick} : tickOfValue v = some t ↔ v = valueOfTick t := by
  constructor
  · intro h
    unfold tickOfValue at h
    split at h
    case h_4 => cases h
    all_goals cases h; exact BitVec.eq_of_toNat_eq ‹_›
  · rintro rfl
    exact tickOfValue_valueOfTick t

theorem plainStep_lt {p : Pipe} {code : Nat} {i : Instr} (h : plainStep p code = some i) : code < 11 := by
  unfold plainStep at h
  split at h
  case h_12 => cases h
  all_goals decide

theorem tickStep_bounds {p : Pipe} {t : Tick} {code : Nat} {i : Instr} (h : tickStep p t code = some i) :
    11 ≤ code ∧ code < 17 := by
  unfold tickStep at h
  split at h
  case h_7 => cases h
  all_goals decide

/-- The three ranges of step codes, below 11, from 11 to 16 and 17, keep the three kinds of STEP row apart. -/
theorem decodeStep_eq_ok_iff {f : CmdFields} {c : Command} :
    decodeStep f = .ok c ↔ f.width = 0 ∧
      ((f.code = clockCode ∧ f.pipe = false ∧ f.value = 0 ∧ c = .instr .clock) ∨
      (∃ i, plainStep (pipeOfBit f.pipe) f.code.toNat = some i ∧ f.value = 0 ∧ c = .instr i) ∨
      ∃ t i, tickStep (pipeOfBit f.pipe) t f.code.toNat = some i ∧ f.value = valueOfTick t ∧ c = .instr i) := by
  constructor
  · intro h
    unfold decodeStep at h
    split at h
    · cases h
    · next hwidth =>
      refine ⟨not_not.mp hwidth, ?_⟩
      split at h
      · next hclock =>
        split at h
        · cases h
        · next hstray =>
          obtain ⟨hpipe, hvalue⟩ := not_or.mp hstray
          exact .inl ⟨hclock, Bool.eq_false_iff.mpr hpipe, not_not.mp hvalue, (Except.ok.inj h).symm⟩
      · split at h
        · next i hplain =>
          split at h
          · cases h
          · next hvalue => exact .inr (.inl ⟨i, hplain, not_not.mp hvalue, (Except.ok.inj h).symm⟩)
        · split at h
          · cases h
          · next t hvalue =>
            split at h
            · next i htick => exact .inr (.inr ⟨t, i, htick, tickOfValue_eq_some_iff.mp hvalue, (Except.ok.inj h).symm⟩)
            · cases h
  · rintro ⟨hwidth, ⟨hclock, hpipe, hvalue, rfl⟩ | ⟨i, hplain, hvalue, rfl⟩ | ⟨t, i, htick, hvalue, rfl⟩⟩
    · simp [decodeStep, hwidth, hclock, hpipe, hvalue]
    · have hclock : f.code ≠ clockCode := fun hc => absurd (plainStep_lt hplain) (by rw [hc]; decide)
      simp [decodeStep, hwidth, hclock, hplain, hvalue]
    · obtain ⟨hge, hlt⟩ := tickStep_bounds htick
      have hclock : f.code ≠ clockCode := fun hc => absurd hlt (by rw [hc]; decide)
      have hplain : plainStep (pipeOfBit f.pipe) f.code.toNat = none :=
        Option.eq_none_iff_forall_ne_some.mpr fun _ hi => absurd (plainStep_lt hi) (Nat.not_lt.mpr hge)
      simp [decodeStep, hwidth, hclock, hplain, hvalue, htick]

theorem decodeAgent_eq_ok_iff {f : CmdFields} {c : Command} :
    decodeAgent f = .ok c ↔ f.width = 0 ∧
      ((∃ a, plainAgent f.code.toNat = some a ∧ f.value = 0 ∧ c = .agent (pipeOfBit f.pipe) a) ∨
      ∃ t, f.code = recorderCode ∧ f.value = valueOfTick t ∧ c = .agent (pipeOfBit f.pipe) (.recorder t)) := by
  constructor
  · intro h
    unfold decodeAgent at h
    split at h
    · cases h
    · next hwidth =>
      refine ⟨not_not.mp hwidth, ?_⟩
      split at h
      · next a hplain =>
        split at h
        · cases h
        · next hvalue => exact .inl ⟨a, hplain, not_not.mp hvalue, (Except.ok.inj h).symm⟩
      · split at h
        · next hcode =>
          split at h
          · cases h
          · next t hvalue => exact .inr ⟨t, hcode, tickOfValue_eq_some_iff.mp hvalue, (Except.ok.inj h).symm⟩
        · cases h
  · rintro ⟨hwidth, ⟨a, hplain, hvalue, rfl⟩ | ⟨t, hcode, hvalue, rfl⟩⟩
    · simp [decodeAgent, hwidth, hplain, hvalue]
    · have hplain : plainAgent recorderCode.toNat = none := rfl
      simp [decodeAgent, hwidth, hcode, hplain, hvalue]

/-! ### All formats -/

/-- What command fields stand for, format by format (30_encoding.md R114, log 2): the middle between the decoder, which accepts exactly
these fields (`decodeFields_eq_ok_iff`), and the encoder, which writes exactly them. -/
inductive Denotes : CmdFields → Command → Prop
  | write (p : Pipe) (off : BitVec 12) (v : Word) (h : off.toNat % 4 = 0) : Denotes (writeFields p off v) (writeAt p off v)
  | read (p : Pipe) (off : BitVec 12) (h : off.toNat % 4 = 0) : Denotes (readFields p off) (readAt p off)
  | symbol (p : Pipe) (w : BitVec 9) : Denotes (symbolFields p w) (.instr (symbolInstr p w))
  | plainStep (p : Pipe) (code : BitVec 16) (i : Instr) (h : plainStep p code.toNat = some i) :
    Denotes (stepFields p code 0) (.instr i)
  | tickStep (p : Pipe) (t : Tick) (code : BitVec 16) (i : Instr) (h : tickStep p t code.toNat = some i) :
    Denotes (stepFields p code (valueOfTick t)) (.instr i)
  | clock : Denotes (stepFields .rx clockCode 0) (.instr .clock)
  | plainAgent (p : Pipe) (code : BitVec 16) (a : Agent) (h : plainAgent code.toNat = some a) :
    Denotes (agentFields p code 0) (.agent p a)
  | recorder (p : Pipe) (t : Tick) : Denotes (agentFields p recorderCode (valueOfTick t)) (.agent p (.recorder t))

theorem decodeFields_writeFields (p : Pipe) (off : BitVec 12) (v : Word) :
    decodeFields (writeFields p off v) = decodeAccess (writeFields p off v) (fun o => writeAt p o v) := by cases p <;> rfl

theorem decodeFields_readFields (p : Pipe) (off : BitVec 12) :
    decodeFields (readFields p off) = decodeAccess (readFields p off) (readAt p) := by cases p <;> rfl

theorem Denotes.decodeFields_eq {f : CmdFields} {c : Command} (h : Denotes f c) : decodeFields f = .ok c := by
  cases h with
  | write p off v h => rw [decodeFields_writeFields]; exact decodeAccess_eq_ok_iff.mpr ⟨off, h, rfl, rfl, rfl⟩
  | read p off h => rw [decodeFields_readFields]; exact decodeAccess_eq_ok_iff.mpr ⟨off, h, rfl, rfl, rfl⟩
  | symbol p w => exact decodeSymbol_eq_ok_iff.mpr ⟨w, rfl, rfl, rfl, by rw [symbolFields, pipeOfBit_bitOfPipe]⟩
  | plainStep p code i h =>
    exact decodeStep_eq_ok_iff.mpr ⟨rfl, .inr (.inl ⟨i, by rwa [stepFields, pipeOfBit_bitOfPipe], rfl, rfl⟩)⟩
  | tickStep p t code i h =>
    exact decodeStep_eq_ok_iff.mpr ⟨rfl, .inr (.inr ⟨t, i, by rwa [stepFields, pipeOfBit_bitOfPipe], rfl, rfl⟩)⟩
  | clock => exact decodeStep_eq_ok_iff.mpr ⟨rfl, .inl ⟨rfl, rfl, rfl, rfl⟩⟩
  | plainAgent p code a h =>
    exact decodeAgent_eq_ok_iff.mpr ⟨rfl, .inl ⟨a, h, rfl, by rw [agentFields, pipeOfBit_bitOfPipe]⟩⟩
  | recorder p t => exact decodeAgent_eq_ok_iff.mpr ⟨rfl, .inr ⟨t, rfl, rfl, by rw [agentFields, pipeOfBit_bitOfPipe]⟩⟩

theorem denotes_of_decodeFields {f : CmdFields} {c : Command} (h : decodeFields f = .ok c) : Denotes f c := by
  obtain ⟨code, value, width, pipe, fmt⟩ := f
  obtain ⟨p, rfl⟩ : ∃ p, pipe = bitOfPipe p := ⟨pipeOfBit pipe, (bitOfPipe_pipeOfBit pipe).symm⟩
  have hfmt {n : BitVec 5} (hn : fmt.toNat = n.toNat) : fmt = n := BitVec.eq_of_toNat_eq hn
  unfold decodeFields at h
  split at h
  · next hf =>
    obtain rfl := hfmt (n := 0) hf
    obtain ⟨off, haligned, rfl, rfl, rfl⟩ := decodeAccess_eq_ok_iff.mp h
    rw [pipeOfBit_bitOfPipe]
    exact .write p off value haligned
  · next hf =>
    obtain rfl := hfmt (n := 1) hf
    split at h
    · cases h
    · next hvalue =>
      obtain rfl := not_not.mp hvalue
      obtain ⟨off, haligned, rfl, rfl, rfl⟩ := decodeAccess_eq_ok_iff.mp h
      rw [pipeOfBit_bitOfPipe]
      exact .read p off haligned
  · next hf =>
    obtain rfl := hfmt (n := 2) hf
    obtain ⟨w, rfl, rfl, rfl, rfl⟩ := decodeSymbol_eq_ok_iff.mp h
    rw [pipeOfBit_bitOfPipe]
    exact .symbol p w
  · next hf =>
    obtain rfl := hfmt (n := 3) hf
    rw [decodeStep_eq_ok_iff, pipeOfBit_bitOfPipe] at h
    obtain ⟨rfl, ⟨rfl, hpipe, rfl, rfl⟩ | ⟨i, hplain, rfl, rfl⟩ | ⟨t, i, htick, rfl, rfl⟩⟩ := h
    · dsimp only at hpipe
      rw [hpipe]
      exact .clock
    · exact .plainStep p code i hplain
    · exact .tickStep p t code i htick
  · next hf =>
    obtain rfl := hfmt (n := 4) hf
    rw [decodeAgent_eq_ok_iff, pipeOfBit_bitOfPipe] at h
    obtain ⟨rfl, ⟨a, hplain, rfl, rfl⟩ | ⟨t, rfl, rfl, rfl⟩⟩ := h
    · exact .plainAgent p code a hplain
    · exact .recorder p t
  · cases h

theorem decodeFields_eq_ok_iff {f : CmdFields} {c : Command} : decodeFields f = .ok c ↔ Denotes f c :=
  ⟨denotes_of_decodeFields, Denotes.decodeFields_eq⟩

end Sys2Proof
end

section
/-! PROOF. The encoder against `Denotes`: a well-formed command's fields denote it (O4), and the fields that denote a command are the
ones the encoder gives it (O5). The two facts behind both are what the register offsets and the symbol words select. -/

namespace Sys2Proof

/-! ### Register offsets (10_state.md R52) -/

section Offsets

variable {p : Pipe} {off : BitVec 12} {v : Word}

theorem isPatternOffset_iff : isPatternOffset off = true ↔ 0x400 ≤ off.toNat ∧ off.toNat < 0x800 := by
  rw [isPatternOffset, beq_iff_eq, extractLsb'_eq_iff]
  simp only [BitVec.reduceToNat]
  omega

theorem reservedOffset_iff : reservedOffset off = true ↔ off.toNat % 4 = 0 ∧ 0x044 < off.toNat ∧ isPatternOffset off = false := by
  rw [← Bool.not_eq_true, isPatternOffset_iff, reservedOffset]
  simp only [Bool.and_eq_true, Bool.or_eq_true, decide_eq_true_eq]
  omega

theorem patternOffset_toNat (i : Byte) : (patternOffset i).toNat = 0x400 + 4 * i.toNat := by
  rw [patternOffset, toNat_append_eq, toNat_append_eq]
  simp only [BitVec.reduceToNat]
  omega

theorem isPatternOffset_patternOffset (i : Byte) : isPatternOffset (patternOffset i) = true := by
  rw [isPatternOffset_iff, patternOffset_toNat]
  omega

theorem patternIndex_patternOffset (i : Byte) : patternIndex (patternOffset i) = i := by
  rw [patternIndex, extractLsb'_eq_iff, patternOffset_toNat]
  omega

theorem patternOffset_patternIndex (h : off.toNat % 4 = 0) (hp : isPatternOffset off = true) :
    patternOffset (patternIndex off) = off := by
  have hindex : (patternIndex off).toNat = off.toNat / 2 ^ 2 % 2 ^ 8 := (extractLsb'_eq_iff.mp rfl).symm
  rw [isPatternOffset_iff] at hp
  apply BitVec.eq_of_toNat_eq
  rw [patternOffset_toNat, hindex]
  omega

/-- A 4-aligned offset is one of the 18 registers at 0x000 to 0x044, a PATTERN slot, or reserved. -/
theorem offset_cases (h : off.toNat % 4 = 0) :
    (∃ k, k < 18 ∧ off = BitVec.ofNat 12 (4 * k)) ∨ (∃ i, off = patternOffset i) ∨ reservedOffset off = true := by
  rcases Nat.lt_or_ge 0x044 off.toNat with hlt | hle
  · cases hp : isPatternOffset off with
    | true => exact .inr (.inl ⟨_, (patternOffset_patternIndex h hp).symm⟩)
    | false => exact .inr (.inr (reservedOffset_iff.mpr ⟨h, hlt, hp⟩))
  · have hoff : off.toNat = 4 * (off.toNat / 4) := by omega
    exact .inl ⟨off.toNat / 4, by omega, (BitVec.toNat_eq_nat.mp hoff).2⟩

theorem writeAt_of_lt (h : 0x044 < off.toNat) :
    writeAt p off v = if isPatternOffset off then .instr (.wrPattern p (patternIndex off) v) else .reservedWrite p off v := by
  unfold writeAt
  split
  case h_19 => rfl
  all_goals omega

theorem readAt_of_lt (h : 0x044 < off.toNat) :
    readAt p off = if isPatternOffset off then .instr (.rdPattern p (patternIndex off)) else .reservedRead p off := by
  unfold readAt
  split
  case h_19 => rfl
  all_goals omega

theorem writeAt_patternOffset (p : Pipe) (i : Byte) (v : Word) : writeAt p (patternOffset i) v = .instr (.wrPattern p i v) := by
  rw [writeAt_of_lt (by rw [patternOffset_toNat]; omega), if_pos (isPatternOffset_patternOffset i), patternIndex_patternOffset]

theorem readAt_patternOffset (p : Pipe) (i : Byte) : readAt p (patternOffset i) = .instr (.rdPattern p i) := by
  rw [readAt_of_lt (by rw [patternOffset_toNat]; omega), if_pos (isPatternOffset_patternOffset i), patternIndex_patternOffset]

theorem writeAt_reserved (h : reservedOffset off = true) : writeAt p off v = .reservedWrite p off v := by
  obtain ⟨_, hlt, hp⟩ := reservedOffset_iff.mp h
  rw [writeAt_of_lt hlt, hp, if_neg Bool.false_ne_true]

theorem readAt_reserved (h : reservedOffset off = true) : readAt p off = .reservedRead p off := by
  obtain ⟨_, hlt, hp⟩ := reservedOffset_iff.mp h
  rw [readAt_of_lt hlt, hp, if_neg Bool.false_ne_true]

end Offsets

/-! ### Symbol words (30_encoding.md R101, R102, R113) -/

/-- The symbol words with a row of their own (R102). -/
def namedSymbols : List (BitVec 9) := namedControl.map (1#1 ++ ·) ++ namedData.map (0#1 ++ ·)

theorem mem_namedSymbols_control_iff : ∀ v : Byte, 1#1 ++ v ∈ namedSymbols ↔ v ∈ namedControl := by decide

theorem mem_namedSymbols_data_iff : ∀ v : Byte, 0#1 ++ v ∈ namedSymbols ↔ v ∈ namedData := by decide

/-- Every symbol word is the control flag and a byte (R101). -/
theorem symbolWord_cases (w : BitVec 9) : (∃ v : Byte, w = 1#1 ++ v) ∨ ∃ v : Byte, w = 0#1 ++ v := by
  have hw : w.extractLsb' 8 1 ++ w.extractLsb' 0 8 = w := BitVec.extractLsb'_append_extractLsb'
  rcases BitVec.eq_zero_or_eq_one (w.extractLsb' 8 1) with h | h <;> rw [h] at hw
  · exact .inr ⟨_, hw.symm⟩
  · exact .inl ⟨_, hw.symm⟩

section Symbols

variable {p : Pipe} {v : Byte}

theorem symbolInstr_of_not_named {w : BitVec 9} (h : w ∉ namedSymbols) :
    symbolInstr p w = if w.getLsbD 8 then .kOther p (w.extractLsb' 0 8) else .dOther p (w.extractLsb' 0 8) := by
  unfold symbolInstr
  split
  case h_11 => rfl
  all_goals next hw => exact absurd (by rw [(BitVec.toNat_eq_nat.mp hw).2]; decide) h

theorem symbolInstr_control (h : v ∉ namedControl) : symbolInstr p (1#1 ++ v) = .kOther p v := by
  rw [symbolInstr_of_not_named (mt (mem_namedSymbols_control_iff v).mp h), if_pos (by rw [BitVec.getLsbD_append]; rfl),
    BitVec.extractLsb'_append_eq_right]

theorem symbolInstr_data (h : v ∉ namedData) : symbolInstr p (0#1 ++ v) = .dOther p v := by
  rw [symbolInstr_of_not_named (mt (mem_namedSymbols_data_iff v).mp h),
    if_neg (by rw [BitVec.getLsbD_append]; exact Bool.false_ne_true), BitVec.extractLsb'_append_eq_right]

end Symbols

/-! ### Encoding, then decoding -/

theorem denotes_instrFields {i : Instr} (h : i.wellFormed = true) : Denotes (instrFields i) (.instr i) := by
  cases i with
  | wrFilterEnable p v | wrFilterConfig p v | wrTlpDllpTimeout p v | wrTrigArmed p v | wrTrigSize p v | wrRecMode p v
  | wrRecOffset p v | wrRecSize p v | start p v | stop p v | wrStatusTriggered p v | wrStatusFinished p v | wrStatusTrigAddr p v
  | wrStatusState p v | wrGeomBase p v | wrGeomLength p v | wrGeomChunk p v | wrGeomStep p v => exact .write p _ v (by decide)
  | rdFilterEnable p | rdFilterConfig p | rdTlpDllpTimeout p | rdTrigArmed p | rdTrigSize p | rdRecMode p | rdRecOffset p
  | rdRecSize p | rdRecStart p | rdRecStop p | rdStatusTriggered p | rdStatusFinished p | rdStatusTrigAddr p | rdStatusState p
  | rdGeomBase p | rdGeomLength p | rdGeomChunk p | rdGeomStep p => exact .read p _ (by decide)
  | wrPattern p k v => rw [← writeAt_patternOffset]; exact .write p _ v (Laws.RowNumber.pattern_aligned k)
  | rdPattern p k => rw [← readAt_patternOffset]; exact .read p _ (Laws.RowNumber.pattern_aligned k)
  | com p | skp p | fts p | idl p | stp p | sdp p | endSym p | d215 p | d102 p | d52 p => exact .symbol p _
  | kOther p v => rw [instrFields, ← symbolInstr_control (of_decide_eq_true h)]; exact .symbol p _
  | dOther p v => rw [instrFields, ← symbolInstr_data (of_decide_eq_true h)]; exact .symbol p _
  | align p | label p | filtWriteFind p | filtWriteOsbody p | filtWritePkt p | filtWritePass p | filtReadPass p | filtReadSelect p
  | filtReadTsins p | filtReadDrain p | trig p => exact .plainStep p _ _ rfl
  | recTickIdle p t | recTickPre p t | recTickWait p t | recTickPost p t | recTickDoneAbort p t | recTickForced p t =>
    exact .tickStep p t _ _ rfl
  | clock => exact .clock

theorem denotes_commandFields {c : Command} (h : c.wellFormed = true) : Denotes (commandFields c) c := by
  cases c with
  | instr i => exact denotes_instrFields h
  | agent p a =>
    cases a with
    | aligner | labeller | writer | reader | trigger => exact .plainAgent p _ _ rfl
    | recorder t => exact .recorder p t
  | reservedWrite p off v =>
    obtain ⟨haligned, _⟩ := reservedOffset_iff.mp h
    rw [commandFields, ← writeAt_reserved h]
    exact .write p off v haligned
  | reservedRead p off =>
    obtain ⟨haligned, _⟩ := reservedOffset_iff.mp h
    rw [commandFields, ← readAt_reserved h]
    exact .read p off haligned

theorem decode_encodeCommand {c : Command} (h : c.wellFormed = true) : decode (encodeCommand c) = .ok c := by
  rw [encodeCommand, decode_toWord]
  exact decodeFields_eq_ok_iff.mpr (denotes_commandFields h)

/-- Settles O4: the fields of a well-formed command denote it, and the decoder accepts what denotes a command. -/
theorem decodeInvertsEncode : Obligations.DecodeInvertsEncode :=
  ⟨fun i => decode_encodeCommand (c := .instr i), fun _ => decode_encodeCommand⟩

/-! ### Decoding, then encoding -/

/-- `f` are the fields that the encoder gives the well-formed command `c`. -/
def IsEncoding (f : CmdFields) (c : Command) : Prop := commandFields c = f ∧ c.wellFormed = true

section IsEncoding

variable {p : Pipe}

theorem isEncoding_write {off : BitVec 12} (v : Word) (h : off.toNat % 4 = 0) :
    IsEncoding (writeFields p off v) (writeAt p off v) := by
  rcases offset_cases h with ⟨k, hk, rfl⟩ | ⟨i, rfl⟩ | hres
  · interval_cases k <;> exact ⟨rfl, rfl⟩
  · rw [writeAt_patternOffset]; exact ⟨rfl, rfl⟩
  · rw [writeAt_reserved hres]; exact ⟨rfl, hres⟩

theorem isEncoding_read {off : BitVec 12} (h : off.toNat % 4 = 0) : IsEncoding (readFields p off) (readAt p off) := by
  rcases offset_cases h with ⟨k, hk, rfl⟩ | ⟨i, rfl⟩ | hres
  · interval_cases k <;> exact ⟨rfl, rfl⟩
  · rw [readAt_patternOffset]; exact ⟨rfl, rfl⟩
  · rw [readAt_reserved hres]; exact ⟨rfl, hres⟩

theorem isEncoding_namedSymbol {w : BitVec 9} (h : w ∈ namedSymbols) : IsEncoding (symbolFields p w) (.instr (symbolInstr p w)) := by
  simp only [namedSymbols, namedControl, namedData, List.map_cons, List.map_nil, List.cons_append, List.nil_append, List.mem_cons,
    List.not_mem_nil, or_false] at h
  rcases h with rfl | rfl | rfl | rfl | rfl | rfl | rfl | rfl | rfl | rfl <;> exact ⟨rfl, rfl⟩

theorem isEncoding_symbol (w : BitVec 9) : IsEncoding (symbolFields p w) (.instr (symbolInstr p w)) := by
  by_cases hw : w ∈ namedSymbols
  · exact isEncoding_namedSymbol hw
  · rcases symbolWord_cases w with ⟨v, rfl⟩ | ⟨v, rfl⟩
    · rw [mem_namedSymbols_control_iff] at hw
      rw [symbolInstr_control hw]
      exact ⟨rfl, decide_eq_true hw⟩
    · rw [mem_namedSymbols_data_iff] at hw
      rw [symbolInstr_data hw]
      exact ⟨rfl, decide_eq_true hw⟩

variable {code : BitVec 16}

theorem isEncoding_plainStep {i : Instr} (h : plainStep p code.toNat = some i) : IsEncoding (stepFields p code 0) (.instr i) := by
  unfold plainStep at h
  split at h
  case h_12 => cases h
  all_goals next hcode => cases h; exact ⟨congrArg (stepFields p · 0) (BitVec.eq_of_toNat_eq hcode.symm), rfl⟩

theorem isEncoding_tickStep {t : Tick} {i : Instr} (h : tickStep p t code.toNat = some i) :
    IsEncoding (stepFields p code (valueOfTick t)) (.instr i) := by
  unfold tickStep at h
  split at h
  case h_7 => cases h
  all_goals next hcode => cases h; exact ⟨congrArg (stepFields p · _) (BitVec.eq_of_toNat_eq hcode.symm), rfl⟩

theorem isEncoding_plainAgent {a : Agent} (h : plainAgent code.toNat = some a) : IsEncoding (agentFields p code 0) (.agent p a) := by
  unfold plainAgent at h
  split at h
  case h_6 => cases h
  all_goals next hcode => cases h; exact ⟨congrArg (agentFields p · 0) (BitVec.eq_of_toNat_eq hcode.symm), rfl⟩

end IsEncoding

theorem Denotes.isEncoding {f : CmdFields} {c : Command} (h : Denotes f c) : IsEncoding f c := by
  cases h with
  | write p off v h => exact isEncoding_write v h
  | read p off h => exact isEncoding_read h
  | symbol p w => exact isEncoding_symbol w
  | plainStep p code i h => exact isEncoding_plainStep h
  | tickStep p t code i h => exact isEncoding_tickStep h
  | clock => exact ⟨rfl, rfl⟩
  | plainAgent p code a h => exact isEncoding_plainAgent h
  | recorder p t => exact ⟨rfl, rfl⟩

/-- Settles O5: a word that decodes has fields that denote the command, and the encoder gives the command these fields. -/
theorem decodedWordIsTheCommandsEncoding : Obligations.DecodedWordIsTheCommandsEncoding := by
  intro w c h
  obtain ⟨hfields, hwf⟩ := (decodeFields_eq_ok_iff.mp h).isEncoding
  exact ⟨by rw [encodeCommand, hfields, CmdFields.toWord_ofWord], hwf⟩

end Sys2Proof
end

section
/-! PROOF. A stage agent's step, a symbol's delivery and a ring record's bits. -/

namespace Sys2Proof.Machine

open Sys2Proof.Config Host

/-! ### A stage agent's step (30_encoding.md R114) -/

theorem step_eq_runCommand {s : State} {w : CmdWord} {rest : List CmdWord} {c : Command} (hv : s.par.Valid)
    (hsched : s.sched = w :: rest) (hdec : decode w = .ok c) : step s = runCommand c { s with sched := rest } := by
  rw [step, if_pos hv, systemStep, fetch_cons hsched]
  simp only [runWord, hdec]

/-- Which row an agent takes is not a matter of the schedule. -/
theorem selectRow_withSched (p : Pipe) (a : Agent) (s : State) (l : List CmdWord) :
    selectRow p a { s with sched := l } = selectRow p a s := by
  cases a <;> simp only [selectRow, State.withSched_pipe]

/-- Settles O2: the step is the selected row's meaning, and each clause names the row that its stage's state selects. -/
theorem agentStepRunsTheRowItsStateSelects : Obligations.AgentStepRunsTheRowItsStateSelects := by
  intro s w rest p a hv hsched hdec
  have hrow {i : Instr} (h : selectRow p a s = i) : step s = exec i { s with sched := rest } := by
    rw [step_eq_runCommand hv hsched hdec, runCommand, selectRow_withSched, h]
  refine ⟨?_, ?_, ?_, ?_, ?_, ?_, ?_⟩
  · rintro rfl
    exact hrow rfl
  · rintro rfl
    exact hrow rfl
  · rintro rfl
    exact hrow rfl
  · rintro rfl hdis
    exact hrow (by simp [selectRow, writerRow, hdis])
  · rintro rfl hen
    refine ⟨?_, fun rem k hw => ?_, fun k c hw => ?_⟩
    · rintro (hw | hw) <;> exact hrow (by simp [selectRow, writerRow, hen, hw])
    · exact hrow (by simp [selectRow, writerRow, hen, hw])
    · exact hrow (by simp [selectRow, writerRow, hen, hw])
  · rintro rfl
    refine ⟨fun hr => ?_, fun hr => ?_, fun h ts k hr => ?_, fun k en st hr => ?_⟩ <;>
      exact hrow (by simp only [selectRow, readerRow, hr])
  · rintro t rfl
    refine ⟨fun hst => ?_, fun hst => ?_, fun hst => ?_, fun hst => ?_, ?_, fun hst => ?_⟩
    case refine_5 => rintro (hst | hst) <;> exact hrow (by simp only [selectRow, recorderRow, hst])
    all_goals exact hrow (by simp only [selectRow, recorderRow, hst])

/-! ### A symbol's delivery -/

@[simp] theorem Xfer.lane0_mk2 (a b : SymByte) : (Xfer.mk2 a b).lane0 = a := by
  have hflag : ∀ j k : Bool, (BitVec.ofBool j ++ BitVec.ofBool k).getLsbD 1 = j := by decide
  have hv : (Xfer.mk2 a b).data.extractLsb' 8 8 = a.v := BitVec.extractLsb'_append_eq_left
  have hk : (Xfer.mk2 a b).ctrl.getLsbD 1 = a.k := hflag a.k b.k
  rw [Xfer.lane0, lane0Of, hv, hk]

@[simp] theorem Xfer.lane1_mk2 (a b : SymByte) : (Xfer.mk2 a b).lane1 = b := by
  have hflag : ∀ j k : Bool, (BitVec.ofBool j ++ BitVec.ofBool k).getLsbD 0 = k := by decide
  have hv : (Xfer.mk2 a b).data.extractLsb' 0 8 = b.v := BitVec.extractLsb'_append_eq_right
  have hk : (Xfer.mk2 a b).ctrl.getLsbD 0 = b.k := hflag a.k b.k
  rw [Xfer.lane1, lane1Of, hv, hk]

/-- A symbol row's meaning is the delivery of its byte (R102, log 7). -/
theorem exec_of_symbolByte {i : Instr} {p : Pipe} {b : SymByte} (hb : symbolByte i = some b) (hp : instrPipe i = some p) (s : State) :
    exec i s = deliver p b s := by
  cases i with
  | com _ | skp _ | fts _ | idl _ | stp _ | sdp _ | endSym _ | d215 _ | d102 _ | d52 _ | kOther _ _ | dOther _ _ =>
    cases hb
    cases hp
    rfl
  | _ => cases hb

/-- Settles O20: every symbol row delivers its byte, which either waits as lane 0 or completes the transfer. -/
theorem symbolPairsBecomeTransfers : Obligations.SymbolPairsBecomeTransfers := by
  rintro i p b s _ rfl hb hp
  rw [exec_of_symbolByte hb hp]
  exact ⟨deliver_first b, fun a h => ⟨Xfer.mk2 a b, Xfer.lane0_mk2 a b, Xfer.lane1_mk2 a b, deliver_second b h⟩⟩

/-! ### A ring record's bits (30_encoding.md R109) -/

/-- A bit as a quotient and remainder. -/
theorem getLsbD_eq_iff {n i : Nat} {x : BitVec n} {b : Bool} : x.getLsbD i = b ↔ x.toNat / 2 ^ i % 2 = (BitVec.ofBool b).toNat := by
  rw [BitVec.getLsbD, Nat.testBit_eq_decide_div_mod_eq]
  cases b <;> simp

/-- A ring record as a number: each field stands past the fields below it, and none reaches bit 32. -/
theorem pack_toNat (y : FiltOut) (tb first : Bool) :
    (pack y tb first).toNat =
      (((((((y.kind.code.toNat * 2 ^ 1 + (BitVec.ofBool y.err).toNat) * 2 ^ 1 + (BitVec.ofBool y.eof).toNat) * 2 ^ 1 +
        (BitVec.ofBool y.sof).toNat) * 2 ^ 1 + (BitVec.ofBool y.isTs).toNat) * 2 ^ 1 + (BitVec.ofBool first).toNat) * 2 ^ 1 +
        (BitVec.ofBool tb).toNat) * 2 ^ 2 + y.ctrl.toNat) * 2 ^ 16 + y.data.toNat :=
  calc (pack y tb first).toNat
      = (y.kind.code ++ BitVec.ofBool y.err ++ BitVec.ofBool y.eof ++ BitVec.ofBool y.sof ++ BitVec.ofBool y.isTs ++
          BitVec.ofBool first ++ BitVec.ofBool tb ++ y.ctrl ++ y.data).toNat := BitVec.toNat_setWidth_of_le (by decide)
    _ = _ := by simp only [toNat_append_eq]

theorem pack_kind (y : FiltOut) (tb first : Bool) : (pack y tb first).extractLsb' 24 3 = y.kind.code := by
  have hpack := pack_toNat y tb first
  rw [extractLsb'_eq_iff]
  omega

theorem pack_reserved (y : FiltOut) (tb first : Bool) : (pack y tb first).extractLsb' 27 5 = 0 := by
  rw [extractLsb'_eq_zero_iff, Nat.div_eq_of_lt (pack_toNat_lt y tb first), Nat.zero_mod]

/-- Settles O48: the record as a number is a sum of shifted fields, so each slice of it is a quotient and remainder. -/
theorem recordFieldsStandAtTheirBits : Obligations.RecordFieldsStandAtTheirBits := by
  intro y tb first
  have hpack := pack_toNat y tb first
  refine ⟨extractLsb'_eq_iff.mpr ?_, extractLsb'_eq_iff.mpr ?_, getLsbD_eq_iff.mpr ?_, getLsbD_eq_iff.mpr ?_, getLsbD_eq_iff.mpr ?_,
    getLsbD_eq_iff.mpr ?_, getLsbD_eq_iff.mpr ?_, getLsbD_eq_iff.mpr ?_, ?_, pack_reserved y tb first⟩
  case refine_9 =>
    rw [pack_kind]
    cases y.kind <;> rfl
  all_goals omega

end Sys2Proof.Machine
end

section
/-! PROOF. The Symbol Classifier: the lane aligner, the labeller and the descrambler (40_classifier.md). -/

namespace Sys2Proof.Machine

open Sys2Proof.Config Host

/-! ### Transfers and byte streams (00_scope.md R11) -/

@[simp] theorem Xfer.mk2_lanes (x : Xfer) : Xfer.mk2 x.lane0 x.lane1 = x := by
  obtain ⟨data, ctrl⟩ := x
  have hdata : data.extractLsb' 8 8 ++ data.extractLsb' 0 8 = data := by
    rw [BitVec.extractLsb'_append_extractLsb'_eq_extractLsb' (by rfl), BitVec.extractLsb'_eq_self]
  have hctrl : ∀ c : BitVec 2, BitVec.ofBool (c.getLsbD 1) ++ BitVec.ofBool (c.getLsbD 0) = c := by decide
  exact congrArg₂ Xfer.mk hdata (hctrl ctrl)

@[simp] theorem byteStream_append (l m : List Xfer) : byteStream (l ++ m) = byteStream l ++ byteStream m :=
  List.flatMap_append

@[simp] theorem byteStream_singleton (x : Xfer) : byteStream [x] = [x.lane0, x.lane1] := rfl

theorem isCom_iff {b : SymByte} : isCom b = true ↔ b = ctl 0xBC := beq_iff_eq

theorem isCom_eq_false_iff {b : SymByte} : isCom b = false ↔ b ≠ ctl 0xBC := beq_eq_false_iff_ne

theorem isSkp_iff {b : SymByte} : isSkp b = true ↔ b = ctl 0x1C := beq_iff_eq

/-! ### The lane aligner (R150, R151) -/

section Align

variable {r : Xfer} {c : ClassifierState}

/-- In phase 0 a transfer passes whole unless COM is on lane 1 only. -/
theorem alignTransfer_pass (hphase : c.phase = false) (h : isCom r.lane0 = true ∨ isCom r.lane1 = false) :
    alignTransfer r c = some { c with labq := c.labq ++ [r] } := by
  have hkeep : (isCom r.lane0 || !isCom r.lane1) = true := by simpa using h
  simp [alignTransfer, hphase, hkeep]

/-- COM on lane 1 only enters phase 1: lane 1 is held, lane 0 dropped. -/
theorem alignTransfer_enter (hphase : c.phase = false) (h0 : isCom r.lane0 = false) (h1 : isCom r.lane1 = true) :
    alignTransfer r c = some { c with phase := true, pend := some r.lane1 } := by
  simp [alignTransfer, hphase, h0, h1]

/-- In phase 1 the held byte pairs with lane 0 unless COM is on lane 0 only. -/
theorem alignTransfer_shift {b : SymByte} (hphase : c.phase = true) (hpend : c.pend = some b)
    (h : isCom r.lane1 = true ∨ isCom r.lane0 = false) :
    alignTransfer r c = some { c with labq := c.labq ++ [Xfer.mk2 b r.lane0], pend := some r.lane1 } := by
  have hkeep : (isCom r.lane1 || !isCom r.lane0) = true := by simpa using h
  simp [alignTransfer, hphase, hpend, hkeep]

/-- COM on lane 0 only returns to phase 0: the held byte is dropped, the transfer passes whole. -/
theorem alignTransfer_return {b : SymByte} (hphase : c.phase = true) (hpend : c.pend = some b) (h1 : isCom r.lane1 = false)
    (h0 : isCom r.lane0 = true) :
    alignTransfer r c = some { c with phase := false, pend := none, labq := c.labq ++ [r] } := by
  simp [alignTransfer, hphase, hpend, h0, h1]

end Align

section AlignStep

variable {p : Pipe} {s : State} {r : Xfer} {rest : List Xfer} {c : ClassifierState}

theorem exec_align_nil (hq : (s.pipe p).qRaw = []) : exec (.align p) s = .next s :=
  agentStep_none (by simp [alignAction, hq])

theorem exec_align_cons (hq : (s.pipe p).qRaw = r :: rest) (hc : alignTransfer r (s.pipe p).cls = some c) :
    exec (.align p) s = .next (s.setPipe p { s.pipe p with qRaw := rest, cls := c }) :=
  agentStep_some (by simp [alignAction, hq, hc])

end AlignStep

/-- Settles O26: each clause is one branch of the aligner. -/
theorem alignStepByPhaseAndComma : Obligations.AlignStepByPhaseAndComma := by
  rintro p s _ r rest rfl
  refine ⟨exec_align_nil, fun hq hphase => ⟨fun h => ?_, fun ⟨h0, h1⟩ => ?_⟩, fun b hq hphase hpend => ⟨fun h => ?_, fun ⟨h1, h0⟩ => ?_⟩⟩
  · exact exec_align_cons hq (alignTransfer_pass hphase h)
  · exact exec_align_cons hq (alignTransfer_enter hphase h0 h1)
  · exact exec_align_cons hq (alignTransfer_shift hphase hpend h)
  · exact exec_align_cons hq (alignTransfer_return hphase hpend h1 h0)

/-- The bytes that have reached the classifier and are not labelled yet, in stream order: the aligned queue, then the held byte. -/
def ClassifierState.bytes (c : ClassifierState) : List SymByte := byteStream c.labq ++ c.pend.toList

/-- `after` is `before` without one byte, the one immediately before a COM (R151). -/
def DropsByteBeforeCom (before after : List SymByte) : Prop :=
  ∃ pre d c post, before = pre ++ d :: c :: post ∧ isCom c = true ∧ after = pre ++ c :: post

/-- Byte accounting of one transfer (R151): only the two realignments drop a byte, each the one next to its COM. -/
theorem alignTransfer_bytes {r : Xfer} {c : ClassifierState} (hc : c.pend.isSome = c.phase) :
    ∃ c', alignTransfer r c = some c' ∧
      (c'.phase = c.phase ∧ c'.bytes = c.bytes ++ [r.lane0, r.lane1] ∨
        c'.phase ≠ c.phase ∧ DropsByteBeforeCom (c.bytes ++ [r.lane0, r.lane1]) c'.bytes) := by
  cases hpend : c.pend with
  | none =>
    have hphase : c.phase = false := by rw [← hc, hpend]; rfl
    by_cases hcom : isCom r.lane0 = true ∨ isCom r.lane1 = false
    · refine ⟨_, alignTransfer_pass hphase hcom, .inl ⟨rfl, ?_⟩⟩
      simp [ClassifierState.bytes, hpend]
    · obtain ⟨h0, h1⟩ : isCom r.lane0 = false ∧ isCom r.lane1 = true := by simpa using hcom
      refine ⟨_, alignTransfer_enter hphase h0 h1, .inr ⟨by simp [hphase], byteStream c.labq, r.lane0, r.lane1, [], ?_, h1, rfl⟩⟩
      simp [ClassifierState.bytes, hpend]
  | some b =>
    have hphase : c.phase = true := by rw [← hc, hpend]; rfl
    by_cases hcom : isCom r.lane1 = true ∨ isCom r.lane0 = false
    · refine ⟨_, alignTransfer_shift hphase hpend hcom, .inl ⟨rfl, ?_⟩⟩
      simp [ClassifierState.bytes, hpend]
    · obtain ⟨h1, h0⟩ : isCom r.lane1 = false ∧ isCom r.lane0 = true := by simpa using hcom
      refine ⟨_, alignTransfer_return hphase hpend h1 h0,
        .inr ⟨by simp [hphase], byteStream c.labq, b, r.lane0, [r.lane1], ?_, h0, ?_⟩⟩ <;> simp [ClassifierState.bytes, hpend]

/-- Settles O27: the step is the aligner's transfer, whose bytes are accounted for. -/
theorem alignDropsOnlyTheByteBeforeAComma : Obligations.AlignDropsOnlyTheByteBeforeAComma := by
  rintro p s t r rest ⟨hc, _⟩ hq ht
  obtain ⟨c', hc', hbytes⟩ := alignTransfer_bytes (r := r) hc
  rw [exec_align_cons hq hc'] at ht
  cases ht
  rw [State.setPipe_pipe]
  exact ⟨rfl, hbytes⟩

/-! ### The recognition table (R152 to R154) -/

/-- A comparison with a constant list is a comparison at each place. -/
theorem map_beq_replicate {α β : Type} [DecidableEq β] (f : α → β) (b : β) (l : List α) :
    (l.map f == List.replicate l.length b) = l.all (fun x => f x = b) := by
  rw [Bool.eq_iff_iff, beq_iff_eq, List.eq_replicate_iff]
  simp

/-- Rows 5 to 7 over a whole window. -/
theorem longSetType_wholeWindow (a : Nat → SymByte) :
    longSetType ((List.range 16).map a) =
      if [1, 2, 3, 4, 5].all (fun n => a n ≠ ctl 0xBC) ∧ [6, 7, 8, 9, 10, 11, 12, 13, 14, 15].all (fun n => a n = dat 0x4A) then .ts1
      else if [1, 2, 3, 4, 5].all (fun n => a n ≠ ctl 0xBC) ∧ [6, 7, 8, 9, 10, 11, 12, 13, 14, 15].all (fun n => a n = dat 0x45) then .ts2
      else .data := by
  have hfields : ((((List.range 16).map a).drop 1).take 5).all (fun b => !isCom b) = [1, 2, 3, 4, 5].all (fun n => a n ≠ ctl 0xBC) := by
    rw [Bool.eq_iff_iff]
    simp [List.range_succ, isCom_eq_false_iff]
  have hident (b : SymByte) : (((List.range 16).map a).drop 6 == List.replicate 10 b) =
      [6, 7, 8, 9, 10, 11, 12, 13, 14, 15].all (fun n => a n = b) :=
    map_beq_replicate a b [6, 7, 8, 9, 10, 11, 12, 13, 14, 15]
  rw [longSetType]
  simp only [hfields, hident, Bool.and_eq_true]

/-- Settles O28: rows 1 to 4 decide where one of them holds, and rows 5 to 7 where none does. -/
theorem recognitionTableGivesTheFirstRowThatHolds : Obligations.RecognitionTableGivesTheFirstRowThatHolds := by
  intro a
  have hshort : shortSetType ((List.range 16).map a) =
      if a 1 = ctl 0x1C ∧ a 2 = ctl 0x1C ∧ a 3 = ctl 0x1C then some .skip
      else if a 1 = ctl 0x3C ∧ a 2 = ctl 0x3C ∧ a 3 = ctl 0x3C then some .fts
      else if a 1 = ctl 0x7C ∧ a 2 = ctl 0x7C ∧ a 3 = ctl 0x7C then some .idle
      else if a 1 = dat 0xB5 ∧ a 2 = ctl 0xBC ∧ a 3 = dat 0x4A then some .compliance
      else none := rfl
  rw [clsType, hshort, longSetType_wholeWindow]
  split_ifs <;> rfl

/-! ### The window and later transfers (R152, R155) -/

/-- Later transfers extend the window at its end. -/
theorem window_append (l more : List Xfer) : window (l ++ more) = window l ++ byteStream (more.take (8 - l.length)) := by
  rw [window, List.take_append, byteStream_append, window]

/-- A whole window does not grow. -/
theorem window_append_of_whole {l : List Xfer} (more : List Xfer) (h : 8 ≤ l.length) : window (l ++ more) = window l := by
  rw [window, List.take_append_of_le_length h, window]

/-- Rows 1 to 4 read `a1` to `a3` alone: once one holds, further bytes change nothing. -/
theorem shortSetType_append {win : List SymByte} (more : List SymByte) (h : (shortSetType win).isSome) :
    shortSetType (win ++ more) = shortSetType win := by
  match win, h with
  | _ :: _ :: _ :: _ :: _, _ => rfl

/-- A window that decides gives the same type when more transfers arrive. -/
theorem clsType_window_append {l : List Xfer} (more : List Xfer) (h : (shortSetType (window l)).isSome ∨ 8 ≤ l.length) :
    clsType (window (l ++ more)) = clsType (window l) := by
  rcases h with hshort | hlen
  · obtain ⟨os, hos⟩ := Option.isSome_iff_exists.mp hshort
    rw [window_append, clsType, clsType, shortSetType_append _ hshort, hos, Option.getD_some, Option.getD_some]
  · rw [window_append_of_whole more hlen]

/-! ### The labeller (R155) -/

/-- The labeller's enabling condition (R155). -/
theorem labelEnabled_iff {c : ClassifierState} {x : Xfer} :
    labelEnabled c x = true ↔
      c.rem ≠ 0 ∨ isCom x.lane0 = false ∨ (shortSetType (window c.labq)).isSome ∨ 8 ≤ c.labq.length := by
  simp only [labelEnabled, Bool.or_eq_true, decide_eq_true_iff, Bool.not_eq_true', or_assoc]

section LabelHead

variable {c : ClassifierState} {x : Xfer}

theorem labelHead_of_rem (h : c.rem ≠ 0) : labelHead c x = (c.cur, c.rem - 1, c.cur) := by
  rw [labelHead, if_pos h]

theorem labelHead_of_not_com (hrem : c.rem = 0) (h : isCom x.lane0 = false) : labelHead c x = (.data, 0, c.cur) := by
  simp [labelHead, hrem, h]

theorem labelHead_of_com_data (hrem : c.rem = 0) (hcom : isCom x.lane0 = true) (h : clsType (window c.labq) = .data) :
    labelHead c x = (.data, 0, c.cur) := by
  simp [labelHead, hrem, hcom, h]

theorem labelHead_of_com_set {os : OsType} (hrem : c.rem = 0) (hcom : isCom x.lane0 = true) (hos : clsType (window c.labq) = os)
    (hdata : os ≠ .data) : labelHead c x = (os, osRest os, os) := by
  simp [labelHead, hrem, hcom, hos, hdata]

/-- The label of an enabled head is fixed: transfers that arrive behind it change neither it nor the set that stays open. -/
theorem labelHead_append (more : List Xfer) (h : labelEnabled c x = true) :
    labelHead { c with labq := c.labq ++ more } x = labelHead c x := by
  by_cases hrem : c.rem = 0
  · cases hcom : isCom x.lane0 with
    | false =>
      rw [labelHead_of_not_com hrem hcom]
      exact labelHead_of_not_com hrem hcom
    | true =>
      have hdecides : (shortSetType (window c.labq)).isSome ∨ 8 ≤ c.labq.length := by simpa [hrem, hcom] using labelEnabled_iff.mp h
      simp only [labelHead, clsType_window_append more hdecides]
  · rw [labelHead_of_rem hrem]
    exact labelHead_of_rem hrem

/-- An enabled head stays enabled when more transfers arrive. -/
theorem labelEnabled_append (more : List Xfer) (h : labelEnabled c x = true) :
    labelEnabled { c with labq := c.labq ++ more } x = true := by
  rw [labelEnabled_iff] at h ⊢
  refine h.imp_right (Or.imp_right (Or.imp (fun hshort => ?_) fun hlen => ?_))
  · rwa [window_append, shortSetType_append _ hshort]
  · rw [List.length_append]
    omega

end LabelHead

/-- The pipeline after its head `x` is labelled `l` (the label, `cls.rem`, `cls.cur`) and descrambled; `rest` stays queued. -/
def emitLabelled (en : Bool) (x : Xfer) (rest : List Xfer) (l : OsType × Fin 8 × OsType) (q : PipelineState) : PipelineState :=
  let d := descramble en x l.1 q.cls.lfsr
  { q with
    cls := { q.cls with labq := rest, rem := l.2.1, cur := l.2.2, lfsr := d.2 }
    qCls := q.qCls ++ [{ data := d.1, ctrl := x.ctrl, os := l.1, isOs := l.1 != .data }] }

section LabelStep

variable {p : Pipe} {s : State} {par : Params} {q : PipelineState} {x : Xfer} {rest : List Xfer}

theorem labelAction_enabled (hq : q.cls.labq = x :: rest) (he : labelEnabled q.cls x = true) :
    labelAction par q = some (emitLabelled par.descrambleEn x rest (labelHead q.cls x) q) := by
  simp [labelAction, hq, he, emitLabelled]

theorem labelAction_waits (hq : q.cls.labq = x :: rest) (he : labelEnabled q.cls x = false) : labelAction par q = none := by
  simp [labelAction, hq, he]

theorem exec_label_enabled (hq : (s.pipe p).cls.labq = x :: rest) (he : labelEnabled (s.pipe p).cls x = true) :
    exec (.label p) s =
      .next (s.setPipe p (emitLabelled s.par.descrambleEn x rest (labelHead (s.pipe p).cls x) (s.pipe p))) :=
  agentStep_some (labelAction_enabled hq he)

theorem exec_label_waits (hq : (s.pipe p).cls.labq = x :: rest) (he : labelEnabled (s.pipe p).cls x = false) :
    exec (.label p) s = .next s :=
  agentStep_none (labelAction_waits hq he)

end LabelStep

/-- Settles O29: each clause names the enabling condition that holds and the label it gives. -/
theorem labelStepLabelsAndDescramblesTheHead : Obligations.LabelStepLabelsAndDescramblesTheHead := by
  rintro p s _ x rest rfl hq emit
  have hemit {os cur : OsType} {rem : Fin 8} (he : labelEnabled (s.pipe p).cls x = true)
      (hl : labelHead (s.pipe p).cls x = (os, rem, cur)) : exec (.label p) s = .next (emit os rem cur) := by
    have hflag : decide (os ≠ .data) = (os != .data) := by cases os <;> rfl
    rw [exec_label_enabled hq he, hl]
    simp only [emit, hflag]
    rfl
  refine ⟨fun hrem => ?_, fun hrem hcom => ?_, fun hrem hcom hdecides => ?_, fun hrem hcom hshort hlen => ?_⟩
  · exact hemit (labelEnabled_iff.mpr (.inl hrem)) (labelHead_of_rem hrem)
  · exact hemit (labelEnabled_iff.mpr (.inr (.inl hcom))) (labelHead_of_not_com hrem hcom)
  · have he : labelEnabled (s.pipe p).cls x = true := labelEnabled_iff.mpr (.inr (.inr hdecides))
    refine ⟨fun hdata => hemit he (labelHead_of_com_data hrem hcom hdata), fun hset => hemit he ?_, fun hset => hemit he ?_⟩
    all_goals
      generalize hos : clsType (window (s.pipe p).cls.labq) = os at hset ⊢
      simp only [List.mem_cons, List.not_mem_nil, or_false] at hset
    · rcases hset with rfl | rfl | rfl | rfl <;> exact labelHead_of_com_set hrem hcom hos (by decide)
    · rcases hset with rfl | rfl <;> exact labelHead_of_com_set hrem hcom hos (by decide)
  · refine exec_label_waits hq (Bool.eq_false_iff.mpr fun he => ?_)
    rcases labelEnabled_iff.mp he with h | h | h | h
    · exact h hrem
    · exact Bool.false_ne_true (h.symm.trans hcom)
    · simp [hshort] at h
    · omega

/-- Settles O30: the head that was enabled stays enabled and keeps its label, so the step is the same but for the queue's end. -/
theorem labelDoesNotDependOnLaterTransfers : Obligations.LabelDoesNotDependOnLaterTransfers := by
  intro p s t more ht hne
  rcases agentStep_next ht with ⟨_, rfl⟩ | ⟨q, hact, rfl⟩
  · exact absurd rfl hne
  · obtain ⟨x, rest, hq, he, hemitted⟩ := labelAction_some hact
    rw [exec_label_enabled (x := x) (rest := rest ++ more) (by simp [hq]) (by simpa using labelEnabled_append more he)]
    simp only [State.setPipe_pipe, State.setPipe_par, State.setPipe_setPipe, labelHead_append more he, hemitted]
    rfl

/-! ### The descrambler (R156, R158, R159) -/

/-- The bytes whose value the descrambler changes (R156): data bytes outside training and compliance sets, with the switch on. -/
def isScrambled (en : Bool) (os : OsType) (b : SymByte) : Bool := !b.k && !unscrambledSet os && en

/-- The LFSR after a byte, which is the same for every label and either switch (R156). -/
def lfsrAfter (b : SymByte) (l : BitVec 16) : BitVec 16 :=
  if b = ctl 0xBC then 0xFFFF else if b = ctl 0x1C then l else lfsrAdvance l

theorem unscrambledSet_iff {os : OsType} : unscrambledSet os = true ↔ os ∈ [OsType.ts1, .ts2, .compliance, .modifiedCompliance] := by
  cases os <;> decide

theorem isScrambled_iff {en : Bool} {os : OsType} {b : SymByte} :
    isScrambled en os b = true ↔ b.k = false ∧ os ∉ [OsType.ts1, .ts2, .compliance, .modifiedCompliance] ∧ en = true := by
  rw [isScrambled, Bool.and_eq_true, Bool.and_eq_true, Bool.not_eq_true', Bool.not_eq_true', ← unscrambledSet_iff, Bool.not_eq_true,
    and_assoc]

/-- DESCRAMBLE_BYTE in one equation: COM and SKP are control bytes, so neither is scrambled. -/
theorem descrambleByte_eq (en : Bool) (os : OsType) (b : SymByte) (l : BitVec 16) :
    descrambleByte en os b l = (if isScrambled en os b then { v := b.v ^^^ lfsrKey l, k := b.k } else b, lfsrAfter b l) := by
  by_cases hcom : b = ctl 0xBC
  · subst hcom; rfl
  · by_cases hskp : b = ctl 0x1C
    · subst hskp; rfl
    · have hc : isCom b = false := isCom_eq_false_iff.mpr hcom
      have hs : ¬ isSkp b = true := mt isSkp_iff.mp hskp
      have hl : lfsrAfter b l = lfsrAdvance l := by rw [lfsrAfter, if_neg hcom, if_neg hskp]
      rw [descrambleByte, hc, if_neg Bool.false_ne_true, if_neg hs, ← isScrambled, hl]
      split
      · next h =>
        obtain ⟨hk, _⟩ := isScrambled_iff.mp h
        rw [hk]
      · rfl

theorem descrambleByte_lfsr (en : Bool) (os : OsType) (b : SymByte) (l : BitVec 16) :
    (descrambleByte en os b l).2 = lfsrAfter b l := by rw [descrambleByte_eq]

theorem descrambleByte_of_not_scrambled {en : Bool} {os : OsType} {b : SymByte} {l : BitVec 16} (h : isScrambled en os b = false) :
    (descrambleByte en os b l).1 = b := by rw [descrambleByte_eq, h]; rfl

/-- Settles O31: the byte changes only where it is scrambled, and the LFSR steps by the byte alone. -/
theorem descrambleByteFollowsItsTable : Obligations.DescrambleByteFollowsItsTable := by
  intro en os b l
  refine ⟨?_, ?_, ?_, fun hcom hskp => ?_, fun h => ?_, fun hk hos hen => ?_⟩
  · rw [descrambleByte_eq]
    split <;> rfl
  · rintro rfl; rfl
  · rintro rfl; rfl
  · rw [descrambleByte_lfsr, lfsrAfter, if_neg hcom, if_neg hskp]
  · refine descrambleByte_of_not_scrambled (Bool.eq_false_iff.mpr fun hs => ?_)
    obtain ⟨hk, hos, hen⟩ := isScrambled_iff.mp hs
    simp [hk, hos, hen] at h
  · rw [descrambleByte_eq, if_pos (isScrambled_iff.mpr ⟨hk, hos, hen⟩)]

/-- The LFSR after a transfer is the same with either switch. -/
theorem descramble_lfsr (en : Bool) (x : Xfer) (os : OsType) (l : BitVec 16) :
    (descramble en x os l).2 = lfsrAfter x.lane1 (lfsrAfter x.lane0 l) := by
  simp only [descramble, descrambleByte_lfsr]

/-- With the switch off a transfer's data passes unchanged (R159). -/
theorem descramble_off (x : Xfer) (os : OsType) (l : BitVec 16) : (descramble false x os l).1 = x.data := by
  have hoff (b : SymByte) : isScrambled false os b = false := Bool.and_false _
  simp only [descramble, descrambleByte_of_not_scrambled (hoff _)]
  exact congrArg Xfer.data x.mk2_lanes

/-- Settles O33: the switch is no part of the enabling condition or the label, and the LFSR's step does not see it. -/
theorem descramblerSwitchChangesDataOnly : Obligations.DescramblerSwitchChangesDataOnly := by
  intro p s en x rest hq
  cases he : labelEnabled (s.pipe p).cls x with
  | false =>
    refine ⟨⟨_, _, exec_label_waits hq he, exec_label_waits (by simpa using hq) (by simpa using he), ?_, ?_⟩, fun _ t c ht hc => ?_⟩
    · simp
    · simp
    · rw [exec_label_waits hq he] at ht
      cases ht
      simp at hc
  | true =>
    refine ⟨⟨_, _, exec_label_enabled hq he, exec_label_enabled (by simpa using hq) (by simpa using he), ?_, ?_⟩, fun hoff t c ht hc => ?_⟩
    · simp only [State.setPipe_pipe, State.withPar_pipe, emitLabelled, descramble_lfsr]
    · simp only [State.setPipe_pipe, State.withPar_pipe, emitLabelled, List.map_append, List.map_cons, List.map_nil]
    · rw [exec_label_enabled hq he, hoff] at ht
      cases ht
      rw [State.setPipe_pipe] at hc
      obtain rfl := List.singleton_inj.mp (List.append_cancel_left hc)
      exact ⟨descramble_off _ _ _, rfl⟩

/-! ### The LFSR (R157) -/

/-- Settles O32: the shift and the advance are the rule's by definition, the key reverses bits 8 to 15, and the lists are evaluated. -/
theorem lfsrGivesTheListedValuesAndKeys : Obligations.LfsrGivesTheListedValuesAndKeys := by
  refine ⟨fun l => rfl, fun l n hn => ?_, by decide, by decide⟩
  have hlt : 7 - n < 8 := by omega
  have hbit : 8 + (7 - n) = 15 - n := by omega
  rw [lfsrKey, bitrev8, BitVec.getLsbD_reverse, BitVec.getMsbD_eq_getLsbD, BitVec.getLsbD_extractLsb', decide_eq_true hn,
    Bool.true_and, show 8 - 1 - n = 7 - n from rfl, decide_eq_true hlt, Bool.true_and, hbit]

end Sys2Proof.Machine
end

section
/-! PROOF. The Frame Filter's writer: which row steps, and what each row admits to the FIFO (41_filter.md R200 to R206). -/

namespace Sys2Proof.Machine

open Sys2Proof.Config Host

/-! ### Start and end symbols (R102) -/

theorem startKind_tlp_iff {b : SymByte} : startKind b = some .tlp ↔ b = ctl 0xFB := by
  unfold startKind
  split_ifs <;> simp_all

theorem startKind_dllp_iff {b : SymByte} : startKind b = some .dllp ↔ b = ctl 0x5C := by
  have hcodes : ctl 0xFB ≠ ctl 0x5C := by decide
  unfold startKind
  split_ifs <;> simp_all

theorem startKind_none_iff {b : SymByte} : startKind b = none ↔ b ≠ ctl 0xFB ∧ b ≠ ctl 0x5C := by
  unfold startKind
  split_ifs <;> simp_all

theorem startKind_isSome_iff {b : SymByte} : (startKind b).isSome = true ↔ b ∈ [ctl 0xFB, ctl 0x5C] := by
  rw [← Option.ne_none_iff_isSome, ne_eq, startKind_none_iff, not_and_or, not_ne_iff, not_ne_iff]
  simp

/-- A start symbol is not COM. -/
theorem isCom_eq_false_of_startKind {b : SymByte} {k : PktKind} (h : startKind b = some k) : isCom b = false := by
  cases k with
  | tlp => rw [startKind_tlp_iff.mp h]; decide
  | dllp => rw [startKind_dllp_iff.mp h]; decide

theorem isEnd_iff {b : SymByte} : isEnd b = true ↔ b = ctl 0xFD := beq_iff_eq

theorem isEnd_eq_false_iff {b : SymByte} : isEnd b = false ↔ b ≠ ctl 0xFD := beq_eq_false_iff_ne

/-- The recognised sets without a frame kind open no frame (30_encoding.md R105). -/
theorem frameKindOfOs_none_iff {os : OsType} : frameKindOfOs os = none ↔ os ∉ [OsType.skip, .fts, .ts1, .ts2] := by
  cases os <;> decide

/-- A start symbol in either lane (R204). -/
def ClassifiedTransfer.holdsStart (x : ClassifiedTransfer) : Bool :=
  (startKind (lane0Of x.data x.ctrl)).isSome || (startKind (lane1Of x.data x.ctrl)).isSome

/-- An END in either lane (R204). -/
def ClassifiedTransfer.holdsEnd (x : ClassifiedTransfer) : Bool := isEnd (lane0Of x.data x.ctrl) || isEnd (lane1Of x.data x.ctrl)

theorem ClassifiedTransfer.holdsStart_iff {x : ClassifiedTransfer} :
    x.holdsStart = true ↔ lane0Of x.data x.ctrl ∈ [ctl 0xFB, ctl 0x5C] ∨ lane1Of x.data x.ctrl ∈ [ctl 0xFB, ctl 0x5C] := by
  rw [holdsStart, Bool.or_eq_true, startKind_isSome_iff, startKind_isSome_iff]

theorem ClassifiedTransfer.holdsEnd_iff {x : ClassifiedTransfer} :
    x.holdsEnd = true ↔ lane0Of x.data x.ctrl = ctl 0xFD ∨ lane1Of x.data x.ctrl = ctl 0xFD := by
  rw [holdsEnd, Bool.or_eq_true, isEnd_iff, isEnd_iff]

/-! ### FIND's branches (R201, R202) and OSBODY (R203) -/

section WriteFind

variable {clock : Word} {x : ClassifiedTransfer} {f : FilterState}

theorem writeFind_set {k : FrameKind} (hcom : isCom (lane0Of x.data x.ctrl) = true) (hos : frameKindOfOs x.os = some k) :
    writeFind clock x f = f.enqueue (fifoItem x k (sof := true) (ts := clock)) (.os (osRest x.os) k) := by
  simp [writeFind, hcom, hos]

/-- A start symbol in lane 0 with an END in lane 1 is a whole frame. -/
theorem writeFind_lane0_whole {k : PktKind} (h0 : startKind (lane0Of x.data x.ctrl) = some k)
    (h1 : isEnd (lane1Of x.data x.ctrl) = true) :
    writeFind clock x f = f.enqueue (fifoItem x k.frameKind (sof := true) (eof := true) (ts := clock)) .find := by
  simp [writeFind, isCom_eq_false_of_startKind h0, h0, h1]

theorem writeFind_lane0_open {k : PktKind} (h0 : startKind (lane0Of x.data x.ctrl) = some k)
    (h1 : isEnd (lane1Of x.data x.ctrl) = false) :
    writeFind clock x f = f.enqueue (fifoItem x k.frameKind (sof := true) (ts := clock)) (.pkt k 0) := by
  simp [writeFind, isCom_eq_false_of_startKind h0, h0, h1]

theorem writeFind_lane1 {k : PktKind} (hset : isCom (lane0Of x.data x.ctrl) = true → frameKindOfOs x.os = none)
    (h0 : startKind (lane0Of x.data x.ctrl) = none) (h1 : startKind (lane1Of x.data x.ctrl) = some k) :
    writeFind clock x f = f.enqueue (fifoItem x k.frameKind (sof := true) (ts := clock)) (.pkt k 0) := by
  have hnone : (if isCom (lane0Of x.data x.ctrl) then frameKindOfOs x.os else none) = none := by simpa using hset
  simp [writeFind, hnone, h0, h1]

theorem writeFind_filler (hset : isCom (lane0Of x.data x.ctrl) = true → frameKindOfOs x.os = none)
    (h0 : startKind (lane0Of x.data x.ctrl) = none) (h1 : startKind (lane1Of x.data x.ctrl) = none) :
    writeFind clock x f = { f with w := .find } := by
  have hnone : (if isCom (lane0Of x.data x.ctrl) then frameKindOfOs x.os else none) = none := by simpa using hset
  simp [writeFind, hnone, h0, h1]

/-- FIND decides the writer's next state without reading the present one. -/
theorem writeFind_withW (w : WState) : writeFind clock x { f with w := w } = writeFind clock x f := rfl

end WriteFind

/-- OSBODY (R203): the item at rest 1 ends the frame. -/
theorem writeOsBody_eq {x : ClassifiedTransfer} {rem : Fin 8} {k : FrameKind} {f : FilterState} :
    writeOsBody x rem k f =
      f.enqueue (fifoItem x k (eof := decide (rem.val = 1))) (if rem.val = 1 then .find else .os (rem - 1) k) := by
  have hlast : rem = 1 ↔ rem.val = 1 := Fin.ext_iff
  have heof : (rem == 1) = decide (rem.val = 1) := by rw [Bool.eq_iff_iff, beq_iff_eq, hlast, decide_eq_true_iff]
  simp only [writeOsBody, heof, hlast]

/-! ### PKT's branches (R204, R205) -/

section WritePkt

variable {clock timeout : Word} {x : ClassifiedTransfer} {k : PktKind} {c : Nat} {f : FilterState}

theorem writePkt_preempted (h : x.holdsStart = true) : writePkt clock timeout x k c f = writeFind clock x f := if_pos h

theorem writePkt_timedOut (hs : x.holdsStart = false) (ht : timeout.toNat < c + 1) :
    writePkt clock timeout x k c f = f.enqueue (fifoItem x k.frameKind (eof := true) (err := true)) .find :=
  (if_neg (Bool.eq_false_iff.mp hs)).trans (if_pos ht)

theorem writePkt_ended (hs : x.holdsStart = false) (ht : c + 1 ≤ timeout.toNat) (he : x.holdsEnd = true) :
    writePkt clock timeout x k c f = f.enqueue (fifoItem x k.frameKind (eof := true)) .find :=
  (if_neg (Bool.eq_false_iff.mp hs)).trans ((if_neg (Nat.not_lt.mpr ht)).trans (if_pos he))

theorem writePkt_payload (hs : x.holdsStart = false) (ht : c + 1 ≤ timeout.toNat) (he : x.holdsEnd = false) :
    writePkt clock timeout x k c f = f.enqueue (fifoItem x k.frameKind) (.pkt k (c + 1)) :=
  (if_neg (Bool.eq_false_iff.mp hs)).trans ((if_neg (Nat.not_lt.mpr ht)).trans (if_neg (Bool.eq_false_iff.mp he)))

end WritePkt

/-! ### The selected row (R200) -/

section WriterRows

variable {clock : Word} {b : Bank} {x : ClassifiedTransfer} {f : FilterState}

theorem findRow_selected (hen : b.filterEnable = true) (hw : f.w = .noFilter ∨ f.w = .find) :
    findRow clock b x f = some (writeFind clock x f) := by
  rcases hw with hw | hw <;> simp [findRow, hen, hw]

theorem osBodyRow_selected {rem : Fin 8} {k : FrameKind} (hen : b.filterEnable = true) (hw : f.w = .os rem k) :
    osBodyRow b x f = some (writeOsBody x rem k f) := by
  simp [osBodyRow, hen, hw]

theorem pktRow_selected {k : PktKind} {c : Nat} (hen : b.filterEnable = true) (hw : f.w = .pkt k c) :
    pktRow clock b x f = some (writePkt clock b.timeout x k c f) := by
  simp [pktRow, hen, hw]

theorem passRow_selected (hdis : b.filterEnable = false) : passRow b x f = some (writePass x f) := by
  simp [passRow, hdis]

theorem findRow_some {f' : FilterState} (h : findRow clock b x f = some f') :
    b.filterEnable = true ∧ (f.w = .noFilter ∨ f.w = .find) := by
  unfold findRow at h
  split at h
  · cases h
  · next hen =>
    refine ⟨by simpa using hen, ?_⟩
    split at h
    · exact .inl ‹_›
    · exact .inr ‹_›
    · cases h
    · cases h

theorem osBodyRow_some {f' : FilterState} (h : osBodyRow b x f = some f') :
    b.filterEnable = true ∧ ∃ rem k, f.w = .os rem k := by
  unfold osBodyRow at h
  split at h
  · cases h
  · next hen =>
    refine ⟨by simpa using hen, ?_⟩
    split at h
    · exact ⟨_, _, ‹_›⟩
    all_goals cases h

theorem pktRow_some {f' : FilterState} (h : pktRow clock b x f = some f') : b.filterEnable = true ∧ ∃ k c, f.w = .pkt k c := by
  unfold pktRow at h
  split at h
  · cases h
  · next hen =>
    refine ⟨by simpa using hen, ?_⟩
    split at h
    · exact ⟨_, _, ‹_›⟩
    all_goals cases h

theorem passRow_some {f' : FilterState} (h : passRow b x f = some f') : b.filterEnable = false := by
  unfold passRow at h
  split at h
  · cases h
  · next hdis => simpa using hdis

end WriterRows

section WriterStep

variable {p : Pipe} {s : State} {row : Bank → ClassifiedTransfer → FilterState → Option FilterState} {x : ClassifiedTransfer}
  {rest : List ClassifiedTransfer} {f : FilterState}

/-- A selected writer row with an item and room takes the item and replaces the Filter's state. -/
theorem writerStep_of_row (hq : (s.pipe p).qCls = x :: rest) (hroom : (s.pipe p).flt.fifo.length < s.par.fifoDepth)
    (hrow : row (s.pipe p).bank x (s.pipe p).flt = some f) :
    agentStep p (writerAction s.par row) s = .next (s.setPipe p { s.pipe p with qCls := rest, flt := f }) :=
  agentStep_some (by simp [writerAction, hq, hroom, hrow])

/-- Without an item or room no writer row steps. -/
theorem writerStep_stalled (h : (s.pipe p).qCls = [] ∨ s.par.fifoDepth ≤ (s.pipe p).flt.fifo.length) :
    agentStep p (writerAction s.par row) s = .next s := by
  refine agentStep_none (writerAction_of_not_enabled ?_)
  rcases h with h | h <;> simp [h]

/-- A writer row that FILTER_ENABLE and `flt.w` do not select does not step (log 4). -/
theorem writerStep_unselected (h : ∀ x f, row (s.pipe p).bank x (s.pipe p).flt ≠ some f) :
    agentStep p (writerAction s.par row) s = .next s := by
  refine agentStep_none (Option.eq_none_iff_forall_ne_some.mpr fun q hq => ?_)
  obtain ⟨x, _, f, _, _, hrow, _⟩ := writerAction_some hq
  exact h x f hrow

/-- FIND where its row is selected. -/
theorem exec_filtWriteFind (hq : (s.pipe p).qCls = x :: rest) (hroom : (s.pipe p).flt.fifo.length < s.par.fifoDepth)
    (hen : (s.pipe p).bank.filterEnable = true) (hw : (s.pipe p).flt.w = .noFilter ∨ (s.pipe p).flt.w = .find) :
    exec (.filtWriteFind p) s = .next (s.setPipe p { s.pipe p with qCls := rest, flt := writeFind s.clock x (s.pipe p).flt }) :=
  writerStep_of_row hq hroom (findRow_selected hen hw)

end WriterStep

/-! ### The rows that are not selected (R200; log 4) -/

section WriterRow

variable {p : Pipe} {q : PipelineState}

theorem writerRow_of_disabled (h : q.bank.filterEnable = false) : writerRow p q = .filtWritePass p := by
  simp [writerRow, h]

theorem writerRow_of_find (hw : q.flt.w = .noFilter ∨ q.flt.w = .find) :
    writerRow p q = if q.bank.filterEnable then .filtWriteFind p else .filtWritePass p := by
  rcases hw with hw | hw <;> cases hen : q.bank.filterEnable <;> simp [writerRow, hen, hw]

theorem writerRow_of_os {rem : Fin 8} {k : FrameKind} (hw : q.flt.w = .os rem k) :
    writerRow p q = if q.bank.filterEnable then .filtWriteOsbody p else .filtWritePass p := by
  cases hen : q.bank.filterEnable <;> simp [writerRow, hen, hw]

theorem writerRow_of_pkt {k : PktKind} {c : Nat} (hw : q.flt.w = .pkt k c) :
    writerRow p q = if q.bank.filterEnable then .filtWritePkt p else .filtWritePass p := by
  cases hen : q.bank.filterEnable <;> simp [writerRow, hen, hw]

end WriterRow

/-- The four writer rows of a pipeline. -/
def writerRows (p : Pipe) : List Instr := [.filtWriteFind p, .filtWriteOsbody p, .filtWritePkt p, .filtWritePass p]

/-- A property of every writer row, row by row. -/
theorem forall_mem_writerRows {p : Pipe} {P : Instr → Prop} :
    (∀ i ∈ writerRows p, P i) ↔ P (.filtWriteFind p) ∧ P (.filtWriteOsbody p) ∧ P (.filtWritePkt p) ∧ P (.filtWritePass p) := by
  simp [writerRows]

/-- A writer row other than the one that FILTER_ENABLE and `flt.w` select changes nothing. -/
theorem exec_writerRow_unselected {p : Pipe} {s : State} :
    ∀ i ∈ writerRows p, writerRow p (s.pipe p) ≠ i → exec i s = .next s := by
  refine forall_mem_writerRows.mpr ⟨fun hne => ?_, fun hne => ?_, fun hne => ?_, fun hne => ?_⟩ <;>
    refine writerStep_unselected fun x f hf => hne ?_
  · obtain ⟨hen, hw⟩ := findRow_some hf
    rw [writerRow_of_find hw, if_pos hen]
  · obtain ⟨hen, _, _, hw⟩ := osBodyRow_some hf
    rw [writerRow_of_os hw, if_pos hen]
  · obtain ⟨hen, _, _, hw⟩ := pktRow_some hf
    rw [writerRow_of_pkt hw, if_pos hen]
  · exact writerRow_of_disabled (passRow_some hf)

theorem exec_writerRows_unselected (p : Pipe) {s : State} {l : List Instr} (hl : l ⊆ writerRows p)
    (hne : writerRow p (s.pipe p) ∉ l) : ∀ i ∈ l, exec i s = .next s :=
  fun i hi => exec_writerRow_unselected i (hl hi) fun h => hne (h ▸ hi)

/-- Settles O38: without an item or room no row is enabled, and each later clause names rows that the state does not select. -/
theorem writerStallsWithoutRoomOrItem : Obligations.WriterStallsWithoutRoomOrItem := by
  rintro p s _ rfl
  refine ⟨fun h => ?_, fun hdis => ?_, fun hen => ?_, fun hw => ?_, fun rem k hw => ?_, fun k c hw => ?_⟩
  · exact forall_mem_writerRows.mpr
      ⟨writerStep_stalled h, writerStep_stalled h, writerStep_stalled h, writerStep_stalled h⟩
  · exact exec_writerRows_unselected p (by simp [writerRows]) (by simp [writerRow_of_disabled hdis])
  · refine writerStep_unselected fun x f hf => ?_
    exact absurd (hen.symm.trans (passRow_some hf)) (by decide)
  · exact exec_writerRows_unselected p (by simp [writerRows]) (by rw [writerRow_of_find hw]; split <;> simp)
  · exact exec_writerRows_unselected p (by simp [writerRows]) (by rw [writerRow_of_os hw]; split <;> simp)
  · exact exec_writerRows_unselected p (by simp [writerRows]) (by rw [writerRow_of_pkt hw]; split <;> simp)

/-! ### FIND, OSBODY and PKT -/

/-- Settles O35: each clause names FIND's branch and what it puts in the FIFO. -/
theorem findOpensAFrameOrDropsFiller : Obligations.FindOpensAFrameOrDropsFiller := by
  rintro p s _ x rest rfl hq hroom hen hw b0 b1 opens isSet
  have hstep {f : FilterState} (hf : writeFind s.clock x (s.pipe p).flt = f) :
      exec (.filtWriteFind p) s = .next (s.setPipe p { s.pipe p with qCls := rest, flt := f }) :=
    hf ▸ exec_filtWriteFind hq hroom hen hw
  have hset {os : OsType} {k : FrameKind} (h0 : b0 = ctl 0xBC) (hos : x.os = os) (hk : frameKindOfOs os = some k) :
      exec (.filtWriteFind p) s = .next (opens k false (.os (osRest os) k)) := by
    subst hos
    exact hstep (writeFind_set (isCom_iff.mpr h0) hk)
  have hwhole {k : PktKind} (h0 : startKind b0 = some k) (h1 : b1 = ctl 0xFD) :
      exec (.filtWriteFind p) s = .next (opens k.frameKind true .find) :=
    hstep (writeFind_lane0_whole h0 (isEnd_iff.mpr h1))
  have hopen {k : PktKind} (h0 : startKind b0 = some k) (h1 : b1 ≠ ctl 0xFD) :
      exec (.filtWriteFind p) s = .next (opens k.frameKind false (.pkt k 0)) :=
    hstep (writeFind_lane0_open h0 (isEnd_eq_false_iff.mpr h1))
  have hnoSet (h : ¬ isSet) (hcom : isCom b0 = true) : frameKindOfOs x.os = none :=
    frameKindOfOs_none_iff.mpr fun hos => h ⟨isCom_iff.mp hcom, hos⟩
  have hlane1 {k : PktKind} (h : ¬ isSet) (htlp : b0 ≠ ctl 0xFB) (hdllp : b0 ≠ ctl 0x5C) (h1 : startKind b1 = some k) :
      exec (.filtWriteFind p) s = .next (opens k.frameKind false (.pkt k 0)) :=
    hstep (writeFind_lane1 (hnoSet h) (startKind_none_iff.mpr ⟨htlp, hdllp⟩) h1)
  refine ⟨fun h0 hos => hset h0 hos rfl, fun h0 hos => hset h0 hos rfl, fun h0 hos => hset h0 hos rfl, fun h0 hos => hset h0 hos rfl,
    fun h0 => hwhole (startKind_tlp_iff.mpr h0), fun h0 => hopen (startKind_tlp_iff.mpr h0),
    fun h0 => hwhole (startKind_dllp_iff.mpr h0), fun h0 => hopen (startKind_dllp_iff.mpr h0),
    fun h htlp hdllp h1 => hlane1 h htlp hdllp (startKind_tlp_iff.mpr h1),
    fun h htlp hdllp h1 => hlane1 h htlp hdllp (startKind_dllp_iff.mpr h1), fun h htlp hdllp h1tlp h1dllp => ?_⟩
  exact hstep (writeFind_filler (hnoSet h) (startKind_none_iff.mpr ⟨htlp, hdllp⟩) (startKind_none_iff.mpr ⟨h1tlp, h1dllp⟩))

/-- Settles O36: in W_OS the enabled Filter selects OSBODY, which ends the frame at rest 1. -/
theorem orderedSetBodyIsCounted : Obligations.OrderedSetBodyIsCounted := by
  rintro p s _ x rest rem k rfl hq hroom hen hw _
  exact writerStep_of_row hq hroom ((osBodyRow_selected hen hw).trans (congrArg some writeOsBody_eq))

/-- Settles O37: each clause names PKT's branch; the preempting item is FIND's, which does not read the state it leaves. -/
theorem packetItemPreemptsTimesOutEndsOrContinues : Obligations.PacketItemPreemptsTimesOutEndsOrContinues := by
  rintro p s _ x rest k c rfl hq hroom hen hw b0 b1 kind starts ends admits
  have hstep {f : FilterState} (hf : writePkt s.clock (s.pipe p).bank.timeout x k c (s.pipe p).flt = f) :
      exec (.filtWritePkt p) s = .next (s.setPipe p { s.pipe p with qCls := rest, flt := f }) :=
    writerStep_of_row hq hroom (hf ▸ pktRow_selected hen hw)
  have hadmits {eof err : Bool} {w : WState} (hf : writePkt s.clock (s.pipe p).bank.timeout x k c (s.pipe p).flt =
      (s.pipe p).flt.enqueue (fifoItem x k.frameKind (eof := eof) (err := err)) w) :
      exec (.filtWritePkt p) s = .next (admits eof err w) := by
    have hkind : k.frameKind = kind := by cases k <;> rfl
    rw [hstep hf, hkind]
    rfl
  have hnoStart (h : ¬ starts) : x.holdsStart = false := Bool.eq_false_iff.mpr (mt ClassifiedTransfer.holdsStart_iff.mp h)
  have hnoEnd (h : ¬ ends) : x.holdsEnd = false := Bool.eq_false_iff.mpr (mt ClassifiedTransfer.holdsEnd_iff.mp h)
  refine ⟨fun h => ?_, fun h ht => ?_, fun h ht he => ?_, fun h ht he => ?_⟩
  · rw [hstep (writePkt_preempted (ClassifiedTransfer.holdsStart_iff.mpr h)), exec_filtWriteFind (x := x) (rest := rest)]
    · simp only [State.setPipe_pipe, State.setPipe_setPipe, State.setPipe_clock, writeFind_withW]
    · simpa using hq
    · simpa using hroom
    · simpa using hen
    · simp
  · exact hadmits (writePkt_timedOut (hnoStart h) ht)
  · exact hadmits (writePkt_ended (hnoStart h) ht (ClassifiedTransfer.holdsEnd_iff.mpr he))
  · exact hadmits (writePkt_payload (hnoStart h) ht (hnoEnd he))

end Sys2Proof.Machine
end

section
/-! PROOF. The Frame Filter's reader: what each row pops and emits in each state (41_filter.md R207 to R211). -/

namespace Sys2Proof.Machine

open Sys2Proof.Config Host

section ReaderStep

variable {p : Pipe} {s : State} {row : Bank → FilterState → Option ReadResult} {f : FilterState}

/-- A reader row with an action replaces the Filter's state and emits its items. -/
theorem readerStep_of_row {out : List FiltOut} (hrow : row (s.pipe p).bank (s.pipe p).flt = some (f, out)) :
    agentStep p (readerAction row) s = .next (s.setPipe p { s.pipe p with flt := f, qFlt := (s.pipe p).qFlt ++ out }) :=
  agentStep_some (by rw [readerAction, hrow, Option.map_some])

/-- A reader row that emits nothing replaces the Filter's state alone. -/
theorem readerStep_silent (hrow : row (s.pipe p).bank (s.pipe p).flt = some (f, [])) :
    agentStep p (readerAction row) s = .next (s.setPipe p { s.pipe p with flt := f }) := by
  rw [readerStep_of_row hrow, List.append_nil]

/-- A reader row without an action does not step. -/
theorem readerStep_waits (hrow : row (s.pipe p).bank (s.pipe p).flt = none) :
    agentStep p (readerAction row) s = .next s :=
  agentStep_none (by rw [readerAction, hrow, Option.map_none])

end ReaderStep

/-- `cfg.MASK[kind]` bit by bit; NONE has no bit (30_encoding.md R105). -/
theorem kindEnabled_eq (mask : BitVec 6) (kind : FrameKind) :
    kindEnabled mask kind = match kind with
      | .skip => mask.getLsbD 0 | .fts => mask.getLsbD 1 | .ts1 => mask.getLsbD 2 | .ts2 => mask.getLsbD 3
      | .tlp => mask.getLsbD 4 | .dllp => mask.getLsbD 5 | .none => false := by
  cases kind with
  | none => exact BitVec.getLsbD_of_ge mask 7 (by decide)
  | _ => rfl

/-- The two halves of a timestamp as a quotient and remainder (30_encoding.md R112). -/
theorem tsHalfData_high (ts : Word) : tsHalfData .hi ts = BitVec.ofNat 16 (ts.toNat / 2 ^ 16) :=
  extractLsb'_eq_iff.mpr (BitVec.toNat_ofNat _ _).symm

theorem tsHalfData_low (ts : Word) : tsHalfData .lo ts = BitVec.ofNat 16 (ts.toNat % 2 ^ 16) :=
  extractLsb'_eq_iff.mpr (by rw [BitVec.toNat_ofNat, Nat.mod_mod, pow_zero, Nat.div_one])

section ReaderRows

variable {b : Bank} {f : FilterState} {h : FifoItem} {rest : List FifoItem}

/-! ### The switches on FILTER_ENABLE (R207; log 8) -/

theorem readPass_switch (hen : b.filterEnable = true) (hr : f.r = .noFilter) : readPass b f = some ({ f with r := .filter }, []) := by
  simp [readPass, hen, hr]

theorem readSelect_switch (hdis : b.filterEnable = false) (hr : f.r = .filter) : readSelect b f = some (readDisable f) := by
  simp [readSelect, hdis, hr]

theorem readTsins_switch {half : TsHalf} {ts : Word} {k : FrameKind} (hdis : b.filterEnable = false) (hr : f.r = .tsi half ts k) :
    readTsins b f = some (readDisable f) := by
  simp [readTsins, hdis, hr]

theorem readDrain_switch {k : FrameKind} {en started : Bool} (hdis : b.filterEnable = false) (hr : f.r = .read k en started) :
    readDrain b f = some (readDisable f) := by
  simp [readDrain, hdis, hr]

/-! ### PASS (R208) -/

theorem readPass_empty (hdis : b.filterEnable = false) (hr : f.r = .noFilter) (hf : f.fifo = []) : readPass b f = none := by
  simp [readPass, hdis, hr, hf]

theorem readPass_head (hdis : b.filterEnable = false) (hr : f.r = .noFilter) (hf : f.fifo = h :: rest) :
    readPass b f = some ({ f with fifo := rest }, [h.payload]) := by
  simp [readPass, hdis, hr, hf]

/-! ### SELECT (R209) -/

theorem readSelect_empty (hen : b.filterEnable = true) (hr : f.r = .filter) (hf : f.fifo = []) : readSelect b f = none := by
  simp [readSelect, hen, hr, hf]

theorem readSelect_discard (hen : b.filterEnable = true) (hr : f.r = .filter) (hf : f.fifo = h :: rest) (hsof : h.sof = false) :
    readSelect b f = some ({ f with fifo := rest }, []) := by
  simp [readSelect, hen, hr, hf, hsof]

/-- An enabled frame with a new timestamp is stamped. -/
theorem readSelect_stamp (hen : b.filterEnable = true) (hr : f.r = .filter) (hf : f.fifo = h :: rest) (hsof : h.sof = true)
    (hkind : kindEnabled b.filterConfig h.kind = true) (hts : f.tsValid = false ∨ h.ts ≠ f.lastTs) :
    readSelect b f = some ({ f with lastTs := h.ts, tsValid := true, r := .tsi .hi h.ts h.kind }, []) := by
  have hnew : (!f.tsValid || h.ts != f.lastTs) = true := by simpa using hts
  simp [readSelect, hen, hr, hf, hsof, hkind, hnew]

/-- Any other frame is read out unstamped, forwarded or drained by its kind. -/
theorem readSelect_read (hen : b.filterEnable = true) (hr : f.r = .filter) (hf : f.fifo = h :: rest) (hsof : h.sof = true)
    (hread : kindEnabled b.filterConfig h.kind = false ∨ f.tsValid = true ∧ h.ts = f.lastTs) :
    readSelect b f =
      some ({ f with lastTs := h.ts, tsValid := true, r := .read h.kind (kindEnabled b.filterConfig h.kind) false }, []) := by
  have hnot : (kindEnabled b.filterConfig h.kind && (!f.tsValid || h.ts != f.lastTs)) = false := by
    rcases hread with hkind | ⟨hvalid, hts⟩
    · rw [hkind, Bool.false_and]
    · simp [hvalid, hts]
  simp only [readSelect, hr, hen, hf, hsof, hnot, Bool.not_true, Bool.false_eq_true, if_false]

/-! ### TSINS (R210) -/

theorem readTsins_high {ts : Word} {k : FrameKind} (hen : b.filterEnable = true) (hr : f.r = .tsi .hi ts k) :
    readTsins b f = some ({ f with r := .tsi .lo ts k }, [tsItem .hi ts k]) := by
  simp [readTsins, hen, hr]

theorem readTsins_low {ts : Word} {k : FrameKind} (hen : b.filterEnable = true) (hr : f.r = .tsi .lo ts k) :
    readTsins b f = some ({ f with r := .read k true false }, [tsItem .lo ts k]) := by
  simp [readTsins, hen, hr]

/-! ### DRAIN (R211) -/

section Drain

variable {k : FrameKind} {en started : Bool}

theorem readDrain_empty (hen : b.filterEnable = true) (hr : f.r = .read k en started) (hf : f.fifo = []) : readDrain b f = none := by
  simp [readDrain, hen, hr, hf]

/-- The next frame's start ends a preempted frame and stays at the head. -/
theorem readDrain_preempted (hen : b.filterEnable = true) (hr : f.r = .read k en started) (hf : f.fifo = h :: rest)
    (hstart : started = true ∧ h.sof = true) : readDrain b f = some ({ f with r := .filter }, []) := by
  simp [readDrain, hen, hr, hf, hstart]

theorem readDrain_pop (hen : b.filterEnable = true) (hr : f.r = .read k en started) (hf : f.fifo = h :: rest)
    (hgo : started = false ∨ h.sof = false) :
    readDrain b f = some
      ({ f with fifo := rest, r := if h.eof = true ∨ h.err = true then .filter else .read k en true },
        if en then [h.payload] else []) := by
  have hnot : (started && h.sof) = false := Bool.and_eq_false_iff.mpr hgo
  simp [readDrain, hen, hr, hf, hnot]

end Drain

end ReaderRows

/-! ### The statements -/

/-- Settles O34: with the Filter disabled PASS is the writer's row, and the reader's row in R_NO_FILTER pops the head. -/
theorem disabledFilterPassesEverything : Obligations.DisabledFilterPassesEverything := by
  rintro p s _ rfl hdis
  refine ⟨fun x rest hq hroom => ?_, fun hr hf => ?_, fun h rest hr hf => ?_⟩
  · exact writerStep_of_row hq hroom (passRow_selected hdis)
  · exact readerStep_waits (readPass_empty hdis hr hf)
  · exact readerStep_of_row (readPass_head hdis hr hf)

/-- Settles O39: each row answers a changed FILTER_ENABLE with the switch alone. -/
theorem readerSwitchesModeFirst : Obligations.ReaderSwitchesModeFirst := by
  rintro p s _ rfl
  refine ⟨fun hen hr => ?_, fun hdis hr => ?_, fun half ts k hdis hr => ?_, fun k en started hdis hr => ?_⟩
  · exact readerStep_silent (readPass_switch hen hr)
  · exact readerStep_silent (readSelect_switch hdis hr)
  · exact readerStep_silent (readTsins_switch hdis hr)
  · exact readerStep_silent (readDrain_switch hdis hr)

/-- Settles O40: the frame at the head is stamped where its kind is enabled and its timestamp is new, and read out otherwise. -/
theorem selectExaminesTheFrameAtTheHead : Obligations.SelectExaminesTheFrameAtTheHead := by
  rintro p s _ rfl hen hr
  refine ⟨fun hf => readerStep_waits (readSelect_empty hen hr hf), fun h rest hf => ⟨fun hsof => ?_, fun hsof => ?_⟩⟩
  · exact readerStep_silent (readSelect_discard hen hr hf hsof)
  · intro en
    have hkind : kindEnabled (s.pipe p).bank.filterConfig h.kind = en := kindEnabled_eq _ _
    refine ⟨fun hon hts => ?_, fun hread => ?_⟩
    · exact readerStep_silent (readSelect_stamp hen hr hf hsof (hkind.trans hon) hts)
    · rw [← hkind] at hread ⊢
      exact readerStep_silent (readSelect_read hen hr hf hsof hread)

/-- Settles O41: the two halves of the timestamp are its quotient and remainder by 2^16. -/
theorem timestampIsInsertedHighHalfFirst : Obligations.TimestampIsInsertedHighHalfFirst := by
  rintro p s _ ts k rfl hen
  refine ⟨fun hr => ?_, fun hr => ?_⟩
  · rw [← tsHalfData_high]
    exact readerStep_of_row (readTsins_high hen hr)
  · rw [← tsHalfData_low]
    exact readerStep_of_row (readTsins_low hen hr)

/-- Settles O42: the head either ends a preempted frame or is popped, and leaves by the frame's own enable. -/
theorem drainForwardsOrDiscardsTheFrame : Obligations.DrainForwardsOrDiscardsTheFrame := by
  rintro p s _ k en started rfl hen hr
  refine ⟨fun hf => readerStep_waits (readDrain_empty hen hr hf), fun h rest hf => ⟨fun hstart => ?_, fun hgo => ?_⟩⟩
  · exact readerStep_silent (readDrain_preempted hen hr hf hstart)
  · have hpop := readDrain_pop hen hr hf hgo
    cases en with
    | true => exact readerStep_of_row hpop
    | false => exact readerStep_silent hpop

end Sys2Proof.Machine
end

section
/-! PROOF. The Trigger Engine: what one item does to it, and the occurrences of the pattern that it detects (42_trigger.md R260 to R268). -/

namespace Sys2Proof.Machine

open Sys2Proof.Config Host

/-! ### One entry and one track (R260, R262, R263) -/

/-- Settles O44: the two halves of the match, each with its don't-care bit. -/
theorem entryMatchesByDataAndControl : Obligations.EntryMatchesByDataAndControl := by
  intro e b
  simp only [entryMatches, Bool.and_eq_true, Bool.or_eq_true, beq_iff_eq]

section Tracks

variable (tbl : List PatternEntry) (size n : Nat) (b0 b1 : SymByte)

/-- A track's comparison as a proposition: lane 1 counts only where the pattern does not end at lane 0. -/
theorem matchPair_eq : matchPair tbl size n b0 b1 =
    if entryMatches (tbl.getD n .reset) b0 = true ∧ (size ≤ n + 1 ∨ entryMatches (tbl.getD (n + 1) .reset) b1 = true)
    then n + 2 else 0 := by
  simp only [matchPair, patternEntry, Bool.and_eq_true, Bool.or_eq_true, decide_eq_true_eq]

/-- The unaligned track starts with entry 0 on lane 1. -/
theorem unalignedTrack_zero :
    unalignedTrack tbl size 0 b0 b1 = if entryMatches (tbl.getD 0 .reset) b1 = true then 1 else 0 := if_pos rfl

theorem unalignedTrack_of_ne_zero {n : Nat} (h : n ≠ 0) : unalignedTrack tbl size n b0 b1 = matchPair tbl size n b0 b1 := if_neg h

theorem unalignedTrack_eq : unalignedTrack tbl size n b0 b1 =
    if n = 0 then (if entryMatches (tbl.getD 0 .reset) b1 = true then 1 else 0)
    else if entryMatches (tbl.getD n .reset) b0 = true ∧ (size ≤ n + 1 ∨ entryMatches (tbl.getD (n + 1) .reset) b1 = true)
    then n + 2 else 0 := by
  rw [← matchPair_eq]
  rfl

end Tracks

/-! ### One item (R264 to R267) -/

section TriggerItem

variable {b : Bank} {tbl : List PatternEntry} {size : Nat} {y : FiltOut} {t : TriggerState}

theorem TriggerState.armed_of_idle (h : t.st = .idle) : t.armed = { st := .active, pa := 0, pu := 0 } := if_pos h

theorem TriggerState.armed_of_active (h : t.st = .active) : t.armed = t := if_neg (by simp [h])

theorem TriggerState.armed_of_done (h : t.st = .done) : t.armed = t := if_neg (by simp [h])

theorem TriggerState.armed_pa (t : TriggerState) : t.armed.pa = if t.st = .idle then 0 else t.pa := apply_ite _ _ _ _

theorem TriggerState.armed_pu (t : TriggerState) : t.armed.pu = if t.st = .idle then 0 else t.pu := apply_ite _ _ _ _

theorem TriggerState.armed_active (h : t.st ≠ .done) : t.armed.st = .active := by
  cases hst : t.st with
  | idle => rw [armed_of_idle hst]
  | active => rw [armed_of_active hst, hst]
  | done => exact absurd hst h

/-- The trigger fires where a pointer or a result has reached the size. -/
theorem matchItem_fires
    (h : size ≤ t.pa ∨ size ≤ t.pu ∨ size ≤ alignedTrack tbl size t.pa (lane0Of y.data y.ctrl) (lane1Of y.data y.ctrl) ∨
      size ≤ unalignedTrack tbl size t.pu (lane0Of y.data y.ctrl) (lane1Of y.data y.ctrl)) :
    matchItem tbl size y t = ({ st := .done, pa := 0, pu := 0 }, true) := by
  unfold matchItem
  dsimp only
  split_ifs with hptr hres
  · rfl
  · rfl
  · exact absurd h (by tauto)

/-- Otherwise the results become the pointers. -/
theorem matchItem_advances (hpa : t.pa < size) (hpu : t.pu < size)
    (hqa : alignedTrack tbl size t.pa (lane0Of y.data y.ctrl) (lane1Of y.data y.ctrl) < size)
    (hqu : unalignedTrack tbl size t.pu (lane0Of y.data y.ctrl) (lane1Of y.data y.ctrl) < size) :
    matchItem tbl size y t =
      ({ st := .active
         pa := alignedTrack tbl size t.pa (lane0Of y.data y.ctrl) (lane1Of y.data y.ctrl)
         pu := unalignedTrack tbl size t.pu (lane0Of y.data y.ctrl) (lane1Of y.data y.ctrl) }, false) := by
  unfold matchItem
  rw [if_neg (by omega), if_neg (by omega)]

theorem triggerItem_disarmed (h : b.trigArmed = false) : triggerItem b tbl y t = ({ st := .idle, pa := 0, pu := 0 }, false) := by
  simp [triggerItem, h]

/-- An armed engine skips an item that is no link item, and every item in T_DONE. -/
theorem triggerItem_skips (harmed : b.trigArmed = true) (h : t.st = .done ∨ y.isTs = true) :
    triggerItem b tbl y t = (t.armed, false) := by
  have hskip : ¬ (t.armed.st = .active ∧ y.isTs = false) := by
    rcases h with hdone | hts
    · simp [TriggerState.armed_of_done hdone, hdone]
    · simp [hts]
  unfold triggerItem
  rw [← TriggerState.armed, if_neg (by simp [harmed])]
  exact if_neg hskip

/-- An armed engine that has not fired matches a link item. -/
theorem triggerItem_compares (harmed : b.trigArmed = true) (hdone : t.st ≠ .done) (hlink : y.isTs = false) :
    triggerItem b tbl y t = matchItem tbl b.trigSize.toNat y t.armed := by
  have hcompare : t.armed.st = .active ∧ y.isTs = false := ⟨TriggerState.armed_active hdone, hlink⟩
  unfold triggerItem
  rw [← TriggerState.armed, if_neg (by simp [harmed])]
  exact if_pos hcompare

end TriggerItem

/-! ### One step (R264) -/

section TrigStep

variable {p : Pipe} {s : State} {y : FiltOut} {rest : List FiltOut}

theorem trig_waits (h : (s.pipe p).qFlt = []) : exec (.trig p) s = .next s :=
  agentStep_none (by rw [trigAction, h])

/-- TRIG takes the head, steps the engine on it and forwards it. -/
theorem trig_takes (h : (s.pipe p).qFlt = y :: rest) {r : TriggerState × Bool}
    (hitem : triggerItem (s.pipe p).bank (s.pipe p).pattern y (s.pipe p).trg = r) :
    exec (.trig p) s = .next (s.setPipe p
      { s.pipe p with qFlt := rest, trg := r.1, qTrg := (s.pipe p).qTrg ++ [{ item := y, trig := r.2 }] }) :=
  agentStep_some (by rw [trigAction, h, ← hitem])

end TrigStep

/-- Settles O45: the engine on an empty queue, disarmed, in T_DONE, and on a timestamp item in T_ACTIVE and T_IDLE. -/
theorem enginePassesItemsItDoesNotCompare : Obligations.EnginePassesItemsItDoesNotCompare := by
  rintro p s _ rfl
  refine ⟨trig_waits, fun y rest hq => ⟨fun hdis => ?_, fun harmed hdone => ?_, fun harmed hactive hts => ?_,
    fun harmed hidle hts => ?_⟩⟩
  · exact trig_takes hq (triggerItem_disarmed hdis)
  · refine trig_takes hq (r := (_, false)) ?_
    rw [triggerItem_skips harmed (.inl hdone), TriggerState.armed_of_done hdone]
  · refine trig_takes hq (r := (_, false)) ?_
    rw [triggerItem_skips harmed (.inr hts), TriggerState.armed_of_active hactive]
  · refine trig_takes hq (r := (_, false)) ?_
    rw [triggerItem_skips harmed (.inr hts), TriggerState.armed_of_idle hidle]

/-- Settles O46: the link item is matched from the armed engine's pointers, and it either fires or advances. -/
theorem armedEngineComparesBothTracks : Obligations.ArmedEngineComparesBothTracks := by
  rintro p s _ y rest rfl hq harmed hdone hlink
  intro size pa pu b0 b1 m pair qa qu
  have hcompares := triggerItem_compares (tbl := (s.pipe p).pattern) harmed hdone hlink
  have hpa : (s.pipe p).trg.armed.pa = pa := TriggerState.armed_pa _
  have hpu : (s.pipe p).trg.armed.pu = pu := TriggerState.armed_pu _
  have hqa : alignedTrack (s.pipe p).pattern size pa b0 b1 = qa := matchPair_eq ..
  have hqu : unalignedTrack (s.pipe p).pattern size pu b0 b1 = qu := unalignedTrack_eq ..
  rw [← hpa] at hqa ⊢
  rw [← hpu] at hqu ⊢
  rw [← hqa, ← hqu]
  exact ⟨fun hreached => trig_takes hq (hcompares.trans (matchItem_fires hreached)),
    fun ha hu hqa hqu => trig_takes hq (hcompares.trans (matchItem_advances ha hu hqa hqu))⟩

/-! ### A run of items -/

/-- The engine's state after a list of items, and what it forwards. -/
def triggerItems (b : Bank) (tbl : List PatternEntry) : List FiltOut → TriggerState → TriggerState × List TrigOut
  | [], t => (t, [])
  | y :: ys, t =>
    let r := triggerItem b tbl y t
    let rs := triggerItems b tbl ys r.1
    (rs.1, { item := y, trig := r.2 } :: rs.2)

/-- As many steps of the engine as there are items take them all. -/
theorem runAgent_trigger {p : Pipe} {ys rest : List FiltOut} {s : State} (hq : (s.pipe p).qFlt = ys ++ rest) :
    runAgent p .trigger ys.length s = .next (s.setPipe p { s.pipe p with
      qFlt := rest
      trg := (triggerItems (s.pipe p).bank (s.pipe p).pattern ys (s.pipe p).trg).1
      qTrg := (s.pipe p).qTrg ++ (triggerItems (s.pipe p).bank (s.pipe p).pattern ys (s.pipe p).trg).2 }) := by
  induction ys generalizing s with
  | nil =>
    rw [List.nil_append] at hq
    simp only [List.length_nil, runAgent, triggerItems, List.append_nil, ← hq]
    exact congrArg _ (State.setPipe_self s p).symm
  | cons y ys ih =>
    have hstep := trig_takes hq (r := triggerItem (s.pipe p).bank (s.pipe p).pattern y (s.pipe p).trg) rfl
    rw [List.length_cons, runAgent, selectRow, hstep, andThen, ih (by rw [State.setPipe_pipe]; rfl)]
    simp only [State.setPipe_pipe, State.setPipe_setPipe, triggerItems, List.append_assoc, List.singleton_append]

/-- The engine has fired on one of a list of items, and stays in T_DONE to its end. -/
def FiresWithin (b : Bank) (tbl : List PatternEntry) (ys : List FiltOut) (t : TriggerState) : Prop :=
  (triggerItems b tbl ys t).1.st = .done ∧ ∃ o ∈ (triggerItems b tbl ys t).2, o.trig = true

section Fires

variable {b : Bank} {tbl : List PatternEntry} {y : FiltOut} {ys : List FiltOut} {t : TriggerState}

/-- An armed engine in T_DONE stays there. -/
theorem triggerItems_done (harmed : b.trigArmed = true) (hdone : t.st = .done) : (triggerItems b tbl ys t).1 = t := by
  induction ys with
  | nil => rfl
  | cons y ys ih =>
    rw [triggerItems, triggerItem_skips harmed (.inl hdone), TriggerState.armed_of_done hdone]
    exact ih

/-- It fires within a list where it fires on the first item. -/
theorem firesWithin_of_head (harmed : b.trigArmed = true)
    (h : triggerItem b tbl y t = ({ st := .done, pa := 0, pu := 0 }, true)) : FiresWithin b tbl (y :: ys) t := by
  rw [FiresWithin, triggerItems, h, triggerItems_done harmed rfl]
  exact ⟨rfl, _, List.mem_cons_self, rfl⟩

/-- It fires within a list where it fires within the rest. -/
theorem FiresWithin.cons (h : FiresWithin b tbl ys (triggerItem b tbl y t).1) : FiresWithin b tbl (y :: ys) t := by
  obtain ⟨hdone, o, ho, htrig⟩ := h
  exact ⟨hdone, o, List.mem_cons_of_mem _ ho, htrig⟩

end Fires

/-! ### The two tracks as one (R262, R263)

After `k` link items that match from a start position, a track's pointer is the number of their bytes less the lane the track starts
at: `2 * k` for the aligned track, `2 * k - 1` (0 at the start) for the unaligned one. -/

/-- The two tracks of the engine. -/
inductive Track where
  | aligned
  | unaligned

/-- The lane of the first item at which a track's occurrence starts. -/
def Track.lane : Track → Nat
  | .aligned => 0
  | .unaligned => 1

/-- A track's pointer. -/
def Track.pointer : Track → TriggerState → Nat
  | .aligned, t => t.pa
  | .unaligned, t => t.pu

/-- A track's comparison of an item. -/
def Track.next : Track → List PatternEntry → Nat → Nat → FiltOut → Nat
  | .aligned, tbl, size, n, y => alignedTrack tbl size n (lane0Of y.data y.ctrl) (lane1Of y.data y.ctrl)
  | .unaligned, tbl, size, n, y => unalignedTrack tbl size n (lane0Of y.data y.ctrl) (lane1Of y.data y.ctrl)

/-- The item `k` link items after a track's start position carries the entries that an occurrence has there. -/
def Track.Fits (c : Track) (tbl : List PatternEntry) (size k : Nat) (y : FiltOut) : Prop :=
  (c.lane ≤ 2 * k → 2 * k - c.lane < size → entryMatches (tbl.getD (2 * k - c.lane) .reset) (lane0Of y.data y.ctrl) = true) ∧
  (2 * k + 1 - c.lane < size → entryMatches (tbl.getD (2 * k + 1 - c.lane) .reset) (lane1Of y.data y.ctrl) = true)

section Detection

variable {c : Track} {b : Bank} {tbl : List PatternEntry} {size k : Nat} {y : FiltOut} {t : TriggerState}

/-- On a link item the engine fires, or each track's pointer becomes its result, below the size. -/
theorem matchItem_fires_or_tracks (c : Track) (tbl : List PatternEntry) (size : Nat) (y : FiltOut) (t : TriggerState) :
    matchItem tbl size y t = ({ st := .done, pa := 0, pu := 0 }, true) ∨
    ∃ t', matchItem tbl size y t = (t', false) ∧ t'.st = .active ∧ c.pointer t' = c.next tbl size (c.pointer t) y ∧
      c.pointer t' < size := by
  by_cases hreached : size ≤ t.pa ∨ size ≤ t.pu ∨
      size ≤ alignedTrack tbl size t.pa (lane0Of y.data y.ctrl) (lane1Of y.data y.ctrl) ∨
      size ≤ unalignedTrack tbl size t.pu (lane0Of y.data y.ctrl) (lane1Of y.data y.ctrl)
  · exact .inl (matchItem_fires hreached)
  · simp only [not_or, Nat.not_le] at hreached
    obtain ⟨hpa, hpu, hqa, hqu⟩ := hreached
    refine .inr ⟨_, matchItem_advances hpa hpu hqa hqu, rfl, ?_⟩
    cases c with
    | aligned => exact ⟨rfl, hqa⟩
    | unaligned => exact ⟨rfl, hqu⟩

/-- A comparison of two entries that fit advances past both. -/
theorem matchPair_of_matches {n : Nat} {b0 b1 : SymByte} (h0 : entryMatches (tbl.getD n .reset) b0 = true)
    (h1 : n + 1 < size → entryMatches (tbl.getD (n + 1) .reset) b1 = true) : matchPair tbl size n b0 b1 = n + 2 := by
  rw [matchPair_eq, if_pos ⟨h0, (Nat.lt_or_ge (n + 1) size).elim (fun hlt => .inr (h1 hlt)) .inl⟩]

/-- A track on an occurrence advances with it. -/
theorem Track.Fits.next (h : c.Fits tbl size k y) (hlt : 2 * k - c.lane < size) :
    c.next tbl size (2 * k - c.lane) y = 2 * (k + 1) - c.lane := by
  obtain ⟨h0, h1⟩ := h
  cases c with
  | aligned => exact matchPair_of_matches (h0 (Nat.zero_le _) hlt) h1
  | unaligned =>
    cases k with
    | zero => exact (unalignedTrack_zero ..).trans (if_pos (h1 hlt))
    | succ k =>
      calc unalignedTrack tbl size (2 * k + 1) (lane0Of y.data y.ctrl) (lane1Of y.data y.ctrl)
        _ = matchPair tbl size (2 * k + 1) (lane0Of y.data y.ctrl) (lane1Of y.data y.ctrl) :=
            unalignedTrack_of_ne_zero _ _ _ _ (Nat.succ_ne_zero _)
        _ = 2 * k + 1 + 2 := matchPair_of_matches (h0 (Nat.le_add_left 1 _) hlt) h1

/-- The link items of a list (R268). -/
def linkItems (ys : List FiltOut) : List FiltOut := ys.filter fun y => !y.isTs

theorem linkItems_of_ts {ys : List FiltOut} (h : y.isTs = true) : linkItems (y :: ys) = linkItems ys :=
  List.filter_cons_of_neg (by simp [h])

theorem linkItems_of_link {ys : List FiltOut} (h : y.isTs = false) : linkItems (y :: ys) = y :: linkItems ys :=
  List.filter_cons_of_pos (by simp [h])

/-- An armed engine whose track has matched `k` link items from a start position fires within the items that complete the occurrence. -/
theorem firesWithin_of_fits {ys : List FiltOut} (harmed : b.trigArmed = true) (hactive : t.armed.st = .active)
    (hptr : c.pointer t.armed = 2 * k - c.lane) (hlt : 2 * k - c.lane < b.trigSize.toNat)
    (hlen : b.trigSize.toNat ≤ 2 * (k + (linkItems ys).length) - c.lane)
    (hfits : ∀ i y, (linkItems ys)[i]? = some y → c.Fits tbl b.trigSize.toNat (k + i) y) : FiresWithin b tbl ys t := by
  induction ys generalizing k t with
  | nil => exact absurd hlen (Nat.not_le.mpr hlt)
  | cons y ys ih =>
    have hdone : t.st ≠ .done := fun h => by
      rw [TriggerState.armed_of_done h, h] at hactive
      cases hactive
    cases hts : y.isTs with
    | true =>
      rw [linkItems_of_ts hts] at hlen hfits
      refine .cons ?_
      rw [triggerItem_skips harmed (.inr hts)]
      have hsame := TriggerState.armed_of_active hactive
      exact ih (by rwa [hsame]) (by rwa [hsame]) hlt hlen hfits
    | false =>
      rw [linkItems_of_link hts] at hlen hfits
      rw [List.length_cons] at hlen
      have hitem := triggerItem_compares (tbl := tbl) harmed hdone hts
      rcases matchItem_fires_or_tracks c tbl b.trigSize.toNat y t.armed with hfire | ⟨t', hnext, hst, hres, hbelow⟩
      · exact firesWithin_of_head harmed (hitem.trans hfire)
      · have hadvance : c.pointer t' = 2 * (k + 1) - c.lane := by
          rw [hres, hptr]
          exact (hfits 0 y rfl).next hlt
        refine .cons ?_
        rw [hitem, hnext]
        have hsame := TriggerState.armed_of_active hst
        refine ih (k := k + 1) (by rwa [hsame]) (by rwa [hsame]) (hadvance ▸ hbelow) (by omega) fun i z hz => ?_
        rw [Nat.add_right_comm, Nat.add_assoc]
        exact hfits (i + 1) z hz

/-! ### From bytes to items -/

/-- The bytes of a list of link items, in stream order. -/
def itemBytes (ys : List FiltOut) : List SymByte := ys.flatMap fun y => [lane0Of y.data y.ctrl, lane1Of y.data y.ctrl]

/-- Item `i`'s two lanes are the bytes `2 * i` and `2 * i + 1`. -/
theorem itemBytes_getElem {ys : List FiltOut} {i : Nat} (h : ys[i]? = some y) :
    (itemBytes ys)[2 * i]? = some (lane0Of y.data y.ctrl) ∧ (itemBytes ys)[2 * i + 1]? = some (lane1Of y.data y.ctrl) := by
  induction ys generalizing i with
  | nil => cases h
  | cons z ys ih =>
    cases i with
    | zero => cases h; exact ⟨rfl, rfl⟩
    | succ i => exact ih h

/-- Items whose bytes match the entries from a track's lane of the first one on fit that track. -/
theorem fits_of_bytes {ys : List FiltOut}
    (h : ∀ n x, n < size → (itemBytes ys)[c.lane + n]? = some x → entryMatches (tbl.getD n .reset) x = true)
    {i : Nat} (hi : ys[i]? = some y) : c.Fits tbl size i y := by
  obtain ⟨h0, h1⟩ := itemBytes_getElem hi
  have hlane : c.lane ≤ 1 := by cases c <;> decide
  refine ⟨fun hle hlt => h _ _ hlt ?_, fun hlt => h _ _ hlt ?_⟩
  · rwa [Nat.add_sub_cancel' hle]
  · rwa [Nat.add_sub_cancel' (by omega)]

/-- An armed engine at a start position of a track fires within items whose link items carry the pattern. -/
theorem firesWithin_of_occurrence {ys : List FiltOut} (c : Track) (harmed : b.trigArmed = true) (hsize : 1 ≤ b.trigSize.toNat)
    (hstart : t.st = .idle ∨ (t.st = .active ∧ c.pointer t = 0))
    (hlen : b.trigSize.toNat ≤ 2 * (linkItems ys).length - c.lane)
    (hbytes : ∀ n x, n < b.trigSize.toNat → (itemBytes (linkItems ys))[c.lane + n]? = some x →
      entryMatches (tbl.getD n .reset) x = true) : FiresWithin b tbl ys t := by
  have hpos : t.armed.st = .active ∧ c.pointer t.armed = 0 := by
    rcases hstart with hidle | hactive
    · rw [TriggerState.armed_of_idle hidle]
      cases c <;> exact ⟨rfl, rfl⟩
    · rwa [TriggerState.armed_of_active hactive.1]
  refine firesWithin_of_fits (k := 0) harmed hpos.1 (by simpa using hpos.2) (by omega) (by rwa [Nat.zero_add]) fun i y hi => ?_
  rw [Nat.zero_add]
  exact fits_of_bytes hbytes hi

end Detection

/-- Settles O47: the link items of the statement are as many as each track needs, ⌈S/2⌉ from lane 0 and ⌊S/2⌋ + 1 from lane 1. -/
theorem occurrenceFromAStartPositionIsDetected : Obligations.OccurrenceFromAStartPositionIsDetected := by
  rintro p s _ ys rest rfl hq harmed hsize
  intro size link bytes matchesFrom fires
  have hfires (h : FiresWithin (s.pipe p).bank (s.pipe p).pattern ys (s.pipe p).trg) : fires := by
    obtain ⟨hdone, o, ho, htrig⟩ := h
    refine ⟨_, runAgent_trigger hq, ?_, o, ?_, htrig⟩
    · rwa [State.setPipe_pipe]
    · rwa [State.setPipe_pipe, List.drop_left]
  refine ⟨fun hstart hlen hbytes => hfires ?_, fun hstart hlen hbytes => hfires ?_⟩
  · have hcount : size ≤ 2 * link.length - Track.aligned.lane := by simp only [Track.lane]; omega
    exact firesWithin_of_occurrence .aligned harmed hsize hstart hcount hbytes
  · have hcount : size ≤ 2 * link.length - Track.unaligned.lane := by simp only [Track.lane]; omega
    exact firesWithin_of_occurrence .unaligned harmed hsize hstart hcount hbytes

end Sys2Proof.Machine
end

section
/-! PROOF. The Ring Recorder: which ticks are taken, what each state's action does, and the rows of a tick
(43_recorder.md R300 to R311). -/

namespace Sys2Proof.Machine

open Sys2Proof.Config Host

/-! ### The cursor (R304) -/

section Cursor

variable {par : Params} {p : Pipe} {c : Word}

theorem nextCursor_toNat (hv : par.Valid) (hc : InRing par p c.toNat) :
    (nextCursor par p c).toNat = if par.limit p ≤ c.toNat + par.addrStep then par.base p else c.toNat + par.addrStep := by
  obtain ⟨hbase, hlt, _⟩ := hc
  obtain ⟨_, _, _, hlim⟩ := hv.ringValid p
  split
  · next h => rw [nextCursor_of_le h, BitVec.toNat_ofNat, Nat.mod_eq_of_lt (by omega)]
  · next h => rw [nextCursor_of_lt (Nat.lt_of_not_le h), BitVec.toNat_ofNat, Nat.mod_eq_of_lt (by omega)]

/-- The record at a record address does not reach past the ring: offset and LENGTH_P are both multiples of ADDR_STEP. -/
theorem inRing_offset_add_step_le (hv : par.Valid) (hc : InRing par p c.toNat) : c.toNat - par.base p + par.addrStep ≤ par.length p := by
  obtain ⟨hbase, hlt, halign⟩ := hc
  obtain ⟨_, hdvd, _, _⟩ := hv.ringValid p
  have hlimit : par.limit p = par.base p + par.length p := rfl
  obtain ⟨a, ha⟩ := Nat.dvd_of_mod_eq_zero halign
  obtain ⟨b, hb⟩ := Nat.dvd_of_mod_eq_zero hdvd
  have hab : a < b := Nat.lt_of_mul_lt_mul_left (a := par.addrStep) (by omega)
  calc c.toNat - par.base p + par.addrStep = par.addrStep * (a + 1) := by rw [ha, Nat.mul_succ]
    _ ≤ par.addrStep * b := Nat.mul_le_mul_left _ hab
    _ = par.length p := hb.symm

/-- Settles O49: the cursor wraps exactly where the advanced offset is LENGTH_P, so a wrap is a sum modulo LENGTH_P. -/
theorem cursorAdvancesAndWraps : Obligations.CursorAdvancesAndWraps := by
  intro par p c hv hc
  refine ⟨nextCursor_toNat hv hc, ?_, inRing_nextCursor hv hc⟩
  have hfits := inRing_offset_add_step_le hv hc
  have hlimit : par.limit p = par.base p + par.length p := rfl
  have hbase : par.base p ≤ c.toNat := hc.left
  rw [nextCursor_toNat hv hc]
  split
  · have hwrap : c.toNat - par.base p + par.addrStep = par.length p := by omega
    rw [hwrap, Nat.mod_self, Nat.add_zero]
  · rw [Nat.mod_eq_of_lt (by omega)]
    omega

end Cursor

/-! ### Ticks that are taken, and ticks that are not (R300, R314) -/

section Tick

variable {sel : RecSt → Bool} {body : TickInput → PipelineState → PipelineState} {p : Pipe} {s : State} {q' : PipelineState} {f : Bool}

/-- A tick is taken where its row is selected, its item is there and the sink is ready or not needed: it is the state's action, then the
synchroniser's shift. -/
theorem recorderStep_taken {t : Tick} {y : Option TrigOut} {q1 : PipelineState} (hsel : sel (s.pipe p).rcr.st = true)
    (hitem : tickItem t (s.pipe p) = some (y, q1))
    (hsink : (tickWrites (s.pipe p).rcr.st (tickSees y (s.pipe p).rcr) && !sinkReady t) = false)
    (hs2 : (s.pipe p).rcr.s2 = f) (hbody : body (tickSees y (s.pipe p).rcr) q1 = q') :
    recorderStep sel body p t s = .next (s.setPipe p
      { q' with rcr := { q'.rcr with s1 := forceOut (s.pipe p.peer).rcr, s2 := (s.pipe p).rcr.s1, fprev := f } }) := by
  subst hs2
  refine agentStep_some ?_
  simp only [tickAction, hsel, hitem, hsink, hbody, shiftForce, Bool.not_true, Bool.false_eq_true, if_false]

theorem recorderStep_idle (hsel : sel (s.pipe p).rcr.st = true) (hs2 : (s.pipe p).rcr.s2 = f)
    (hbody : body (tickSees none (s.pipe p).rcr) (s.pipe p) = q') :
    recorderStep sel body p .idle s = .next (s.setPipe p
      { q' with rcr := { q'.rcr with s1 := forceOut (s.pipe p.peer).rcr, s2 := (s.pipe p).rcr.s1, fprev := f } }) :=
  recorderStep_taken hsel rfl rfl hs2 hbody

theorem recorderStep_item {sink : Bool} {y : TrigOut} {rest : List TrigOut} (hsel : sel (s.pipe p).rcr.st = true)
    (hq : (s.pipe p).qTrg = y :: rest)
    (hsink : sink = true ∨ tickWrites (s.pipe p).rcr.st (tickSees (some y) (s.pipe p).rcr) = false)
    (hs2 : (s.pipe p).rcr.s2 = f) (hbody : body (tickSees (some y) (s.pipe p).rcr) { s.pipe p with qTrg := rest } = q') :
    recorderStep sel body p (.item sink) s = .next (s.setPipe p
      { q' with rcr := { q'.rcr with s1 := forceOut (s.pipe p.peer).rcr, s2 := (s.pipe p).rcr.s1, fprev := f } }) := by
  refine recorderStep_taken hsel (by rw [tickItem, hq]) ?_ hs2 hbody
  rcases hsink with rfl | hquiet
  · exact Bool.and_false _
  · rw [hquiet, Bool.false_and]

theorem recorderStep_unselected {t : Tick} (hsel : sel (s.pipe p).rcr.st = false) : recorderStep sel body p t s = .next s :=
  agentStep_none (by rw [tickAction, hsel]; rfl)

theorem recorderStep_notEnabled {t : Tick}
    (h : ((tickItem t (s.pipe p)).isSome && (!tickStores t (s.pipe p) || sinkReady t)) = false) : recorderStep sel body p t s = .next s :=
  agentStep_none (tickAction_of_not_enabled h)

theorem recorderStep_noItem {sink : Bool} (hq : (s.pipe p).qTrg = []) : recorderStep sel body p (.item sink) s = .next s :=
  recorderStep_notEnabled (by rw [tickItem, hq]; rfl)

/-- A tick of the selected row that would write waits for the sink, and for its item. -/
theorem recorderStep_stalled
    (hwrites : sel (s.pipe p).rcr.st = true → ∀ y, tickWrites (s.pipe p).rcr.st (tickSees (some y) (s.pipe p).rcr) = true) :
    recorderStep sel body p (.item false) s = .next s := by
  cases hsel : sel (s.pipe p).rcr.st with
  | false => exact recorderStep_unselected hsel
  | true =>
    cases hq : (s.pipe p).qTrg with
    | nil => exact recorderStep_noItem hq
    | cons y rest =>
      refine recorderStep_notEnabled ?_
      simp only [tickStores, tickItem, hq, hwrites hsel y, sinkReady, Option.isSome_some, Bool.not_true, Bool.or_self, Bool.and_false]

end Tick

/-! ### What a tick sees, and the counts (R300 to R302) -/

theorem tickSees_quiet {r : RecorderState} (y : Option TrigOut) (h : ¬ (r.s2 = true ∧ r.fprev = false)) : (tickSees y r).rise = false := by
  simpa [tickSees] using h

theorem tickSees_rising {r : RecorderState} (y : Option TrigOut) (hs2 : r.s2 = true) (hfprev : r.fprev = false) :
    (tickSees y r).rise = true := by
  simp [tickSees, hs2, hfprev]

/-- DONE and ABORT write nothing (R309). -/
theorem tickWrites_finished {st : RecSt} (h : st ∈ [RecSt.done, .abort]) (i : TickInput) : tickWrites st i = false := by
  rw [List.mem_pair] at h
  rcases h with rfl | rfl <;> exact Bool.and_false _

theorem counted_iff {mode : RecMode} {y : TrigOut} : counted mode y = true ↔ mode = .raw ∨ y.item.isTs = false := by
  simp [counted]

theorem reached_iff {count bound : Word} : reached count bound = true ↔ bound.toNat ≤ count.toNat := by
  simp [reached, BitVec.ule]

/-- The unit count after an item (R302). -/
theorem ite_counted {α : Type} (mode : RecMode) (y : TrigOut) (a b : α) :
    (if tickCounts mode (some y) then a else b) = if mode = .raw ∨ y.item.isTs = false then a else b :=
  if_congr counted_iff rfl rfl

/-- The post-trigger count's start (R307): POST_INCLUDES_TRIG and the trigger record is a unit. -/
theorem ite_postIncludesTrig {α : Type} (incl : Bool) (mode : RecMode) (y : TrigOut) (a b : α) :
    (if incl && counted mode y then a else b) = if incl = true ∧ (mode = .raw ∨ y.item.isTs = false) then a else b :=
  if_congr (by rw [Bool.and_eq_true, counted_iff]) rfl rfl

/-! ### The states' actions (R305 to R310) -/

section Bodies

variable {par : Params} {p : Pipe} {i : TickInput} {q : PipelineState} {n : Word}

theorem writeItem_bank (y : Option TrigOut) : (writeItem par p y q).bank = q.bank := by cases y <;> rfl

theorem idleBody_quiet (h : i.rise = false) : idleBody par p i q = q := if_neg (Bool.not_eq_true _ ▸ h)

theorem idleBody_rising (h : i.rise = true) :
    idleBody par p i q = writeItem par p i.y { q with rcr := { initCapture par p q.rcr with st := .forced } } := if_pos h

/-- The count test of the post-trigger window (R307, R308). -/
theorem enterPost_eq {size : Word} (hn : q.rcr.postCnt = n) (hsize : q.bank.recSize = size) :
    enterPost q = { q with rcr := { q.rcr with st := if size.toNat ≤ n.toNat then .done else .fillPostTrig } } := by
  rw [enterPost, hn, hsize, if_congr reached_iff rfl rfl, setRecSt]

theorem extTrigger_eq (hn : (if par.postIncludesTrig && tickCounts q.bank.recMode i.y then 1 else 0) = n) :
    extTrigger par p i q =
      let w := writeItem par p i.y (markTrigger q)
      { w with rcr := { w.rcr with
          postCnt := n, st := if q.bank.recSize.toNat ≤ n.toNat then .done else .fillPostTrig } } := by
  subst hn
  exact enterPost_eq rfl (congrArg Bank.recSize (writeItem_bank i.y))

theorem ownTrigger_eq {y : TrigOut} (hn : (if par.postIncludesTrig && counted q.bank.recMode y then 1 else 0) = n) :
    ownTrigger par p y q =
      let w := writeRecord par p y true (markTrigger q)
      { w with rcr := { w.rcr with
          postCnt := n, st := if q.bank.recSize.toNat ≤ n.toNat then .done else .fillPostTrig } } := by
  subst hn
  exact enterPost_eq rfl rfl

theorem preBody_rising (h : i.rise = true) : preBody par p i q = extTrigger par p i q := if_pos h

theorem preBody_quiet (h : i.rise = false) (hst : q.rcr.st = .fillPreTrig)
    (hn : (if tickCounts q.bank.recMode i.y then q.rcr.preCnt + 1 else q.rcr.preCnt) = n) :
    preBody par p i q =
      let w := writeItem par p i.y q
      { w with rcr := { w.rcr with
          preCnt := n, st := if q.bank.recOffset.toNat ≤ n.toNat then .waitTrigger else .fillPreTrig } } := by
  simp only [preBody, h, hn, writeItem_st, hst, reached_iff, Bool.false_eq_true, if_false]

theorem waitBody_own {y : TrigOut} (hy : i.y = some y) (htrig : y.trig = true) : waitBody par p i q = ownTrigger par p y q := by
  simp only [waitBody, hy, htrig, if_true]

/-- In WAIT_TRIGGER without an own trigger a rise is the trigger (R307). -/
theorem waitBody_rising (hy : i.y.any (·.trig) = false) (h : i.rise = true) : waitBody par p i q = extTrigger par p i q := by
  unfold waitBody
  split
  · next y hi =>
    rw [hi, Option.any_some] at hy
    simp only [hy, h, Bool.false_eq_true, if_false, if_true]
  · exact if_pos h

theorem waitBody_quiet (hy : i.y.any (·.trig) = false) (h : i.rise = false) : waitBody par p i q = writeItem par p i.y q := by
  unfold waitBody
  split
  · next y hi =>
    rw [hi, Option.any_some] at hy
    simp only [hy, h, hi, writeItem, Bool.false_eq_true, if_false]
  · next hi => simp only [h, hi, writeItem, Bool.false_eq_true, if_false]

theorem postBody_eq (hn : (if tickCounts q.bank.recMode i.y then q.rcr.postCnt + 1 else q.rcr.postCnt) = n) :
    postBody par p i q =
      let w := writeItem par p i.y q
      { w with rcr := { w.rcr with
          postCnt := n, st := if q.bank.recSize.toNat ≤ n.toNat then .done else .fillPostTrig } } := by
  subst hn
  exact enterPost_eq rfl (congrArg Bank.recSize (writeItem_bank i.y))

theorem forcedBody_high (h : i.f = true) : forcedBody par p i q = writeItem par p i.y q := if_pos h

theorem forcedBody_low (h : i.f = false) : forcedBody par p i q = setRecSt .done q := if_neg (Bool.not_eq_true _ ▸ h)

end Bodies

/-! ### The rows -/

/-- Settles O50: without a rise the action leaves the pipeline, and a rise initialises the capture, then writes the item. -/
theorem idleRecorderDropsOrIsForced : Obligations.IdleRecorderDropsOrIsForced := by
  rintro p s _ _ rfl hst rfl base forced rise
  have hsel : ((s.pipe p).rcr.st == .idle) = true := beq_iff_eq.mpr hst
  refine ⟨fun hquiet => ?_, fun hquiet y rest sink hq => ?_, fun ⟨hs2, hfprev⟩ => ?_, fun ⟨hs2, hfprev⟩ y rest hq => ?_⟩
  · exact recorderStep_idle hsel rfl (idleBody_quiet (tickSees_quiet _ hquiet))
  · exact recorderStep_item hsel hq (.inr (by rw [hst]; exact tickSees_quiet _ hquiet)) rfl (idleBody_quiet (tickSees_quiet _ hquiet))
  · exact recorderStep_idle hsel rfl (idleBody_rising (tickSees_rising _ hs2 hfprev))
  · exact recorderStep_item hsel hq (.inl rfl) rfl (idleBody_rising (tickSees_rising _ hs2 hfprev))

/-- Settles O51: without a rise the action writes the item, counts it and compares the count with OFFSET. -/
theorem preTriggerFillWritesAndCounts : Obligations.PreTriggerFillWritesAndCounts := by
  rintro p s _ _ rfl hst rfl hquiet stFor
  have hsel : ((s.pipe p).rcr.st == .fillPreTrig) = true := beq_iff_eq.mpr hst
  refine ⟨?_, fun y rest hq => ?_⟩
  · exact recorderStep_idle hsel rfl (preBody_quiet (tickSees_quiet _ hquiet) hst rfl)
  · exact recorderStep_item hsel hq (.inl rfl) rfl (preBody_quiet (tickSees_quiet _ hquiet) hst (ite_counted _ y _ _))

/-- Settles O52: an own trigger is seen before a rise, and without either the item is written. -/
theorem waitingRecorderRetainsUntilItsTrigger : Obligations.WaitingRecorderRetainsUntilItsTrigger := by
  rintro p s _ _ rfl hst rfl rise
  have hsel : ((s.pipe p).rcr.st == .waitTrigger) = true := beq_iff_eq.mpr hst
  refine ⟨fun hquiet => ?_, fun y rest hquiet hq hy => ?_, fun y rest hq hy => ?_⟩
  · exact recorderStep_idle hsel rfl (waitBody_quiet rfl (tickSees_quiet _ hquiet))
  · exact recorderStep_item hsel hq (.inl rfl) rfl (waitBody_quiet hy (tickSees_quiet _ hquiet))
  · exact recorderStep_item hsel hq (.inl rfl) rfl ((waitBody_own rfl hy).trans (ownTrigger_eq (ite_postIncludesTrig _ _ y _ _)))

/-- Settles O53: in both states the action of the tick is EXT_TRIGGER. -/
theorem externalTriggerStartsThePostWindow : Obligations.ExternalTriggerStartsThePostWindow := by
  rintro p s _ _ rfl rfl hs2 hfprev stFor idle item
  have hrise y : (tickSees y (s.pipe p).rcr).rise = true := tickSees_rising y hs2 hfprev
  have hnone : extTrigger s.par p (tickSees none (s.pipe p).rcr) (s.pipe p) = _ :=
    extTrigger_eq (n := 0) (if_neg (by rw [tickSees, tickCounts, Bool.and_false]; decide))
  refine ⟨fun hst => ?_, fun hst => ?_⟩
  · have hsel : ((s.pipe p).rcr.st == .fillPreTrig) = true := beq_iff_eq.mpr hst
    refine ⟨recorderStep_idle hsel hs2 ((preBody_rising (hrise _)).trans hnone), fun y rest hq => ?_⟩
    exact recorderStep_item hsel hq (.inl rfl) hs2 ((preBody_rising (hrise _)).trans (extTrigger_eq (ite_postIncludesTrig _ _ y _ _)))
  · have hsel : ((s.pipe p).rcr.st == .waitTrigger) = true := beq_iff_eq.mpr hst
    refine ⟨recorderStep_idle hsel hs2 ((waitBody_rising rfl (hrise _)).trans hnone), fun y rest hq hy => ?_⟩
    have hrising := waitBody_rising (par := s.par) (p := p) (i := tickSees (some y) _) (q := { s.pipe p with qTrg := rest }) hy (hrise _)
    exact recorderStep_item hsel hq (.inl rfl) hs2 (hrising.trans (extTrigger_eq (ite_postIncludesTrig _ _ y _ _)))

/-- Settles O54: the action writes the item, counts it and compares the count with SIZE. -/
theorem postTriggerFillWritesUntilSize : Obligations.PostTriggerFillWritesUntilSize := by
  rintro p s _ _ rfl hst rfl stFor
  have hsel : ((s.pipe p).rcr.st == .fillPostTrig) = true := beq_iff_eq.mpr hst
  refine ⟨?_, fun y rest hq => ?_⟩
  · exact recorderStep_idle hsel rfl (postBody_eq rfl)
  · exact recorderStep_item hsel hq (.inl rfl) rfl (postBody_eq (ite_counted _ y _ _))

/-- Settles O55: DONE and ABORT have no action, and FORCED's is decided by the synchronised wire. -/
theorem finishedDiscardsAndForcedWritesWhileTheWireIsHigh : Obligations.FinishedDiscardsAndForcedWritesWhileTheWireIsHigh := by
  rintro p s _ _ rfl rfl
  refine ⟨fun hst => ?_, fun hst hlow => ?_, fun hst hhigh => ?_⟩
  · have hsel : ((s.pipe p).rcr.st == .done || (s.pipe p).rcr.st == .abort) = true := by simpa using hst
    have hquiet y : tickWrites (s.pipe p).rcr.st (tickSees y (s.pipe p).rcr) = false := tickWrites_finished hst _
    exact ⟨recorderStep_idle hsel rfl rfl, fun y rest sink hq => recorderStep_item hsel hq (.inr (hquiet _)) rfl rfl⟩
  · have hsel : ((s.pipe p).rcr.st == .forced) = true := beq_iff_eq.mpr hst
    refine ⟨recorderStep_idle hsel hlow (forcedBody_low hlow), fun y rest sink hq => ?_⟩
    exact recorderStep_item hsel hq (.inr (by rw [hst]; exact hlow)) hlow (forcedBody_low hlow)
  · have hsel : ((s.pipe p).rcr.st == .forced) = true := beq_iff_eq.mpr hst
    refine ⟨recorderStep_idle hsel hhigh (forcedBody_high hhigh), fun y rest hq => ?_⟩
    exact recorderStep_item hsel hq (.inl rfl) hhigh (forcedBody_high hhigh)

/-- Settles O56: an item tick needs its item, a tick that writes needs the sink, and every tick needs its row selected. -/
theorem recorderWaitsForItemAndSink : Obligations.RecorderWaitsForItemAndSink := by
  rintro p s _ t rfl
  refine ⟨fun sink hq => ?_, ?_, fun hs2 hfprev => ?_, fun hs2 => ?_, fun h => ?_, fun h => ?_, fun h => ?_, fun h => ?_,
    fun hd ha => ?_, fun h => ?_⟩
  · simp only [List.forall_mem_cons]
    exact ⟨recorderStep_noItem hq, recorderStep_noItem hq, recorderStep_noItem hq, recorderStep_noItem hq, recorderStep_noItem hq,
      recorderStep_noItem hq, nofun⟩
  · simp only [List.forall_mem_cons]
    refine ⟨recorderStep_stalled ?_, recorderStep_stalled ?_, recorderStep_stalled ?_, nofun⟩ <;>
      exact fun hsel y => by rw [beq_iff_eq.mp hsel]; rfl
  · refine recorderStep_stalled fun hsel y => ?_
    rw [beq_iff_eq.mp hsel]
    exact tickSees_rising _ hs2 hfprev
  · refine recorderStep_stalled fun hsel y => ?_
    rw [beq_iff_eq.mp hsel]
    exact hs2
  · exact recorderStep_unselected (beq_eq_false_iff_ne.mpr h)
  · exact recorderStep_unselected (beq_eq_false_iff_ne.mpr h)
  · exact recorderStep_unselected (beq_eq_false_iff_ne.mpr h)
  · exact recorderStep_unselected (beq_eq_false_iff_ne.mpr h)
  · exact recorderStep_unselected (Bool.or_eq_false_iff.mpr ⟨beq_eq_false_iff_ne.mpr hd, beq_eq_false_iff_ne.mpr ha⟩)
  · exact recorderStep_unselected (beq_eq_false_iff_ne.mpr h)

end Sys2Proof.Machine
end

section
/-! PROOF. The rings under one instruction, and the force wire's synchroniser over three ticks (20_memory.md R70, 43_recorder.md R301). -/

namespace Sys2Proof.Machine

open Sys2Proof.Config Host

/-! ### The synchroniser (R300, R301) -/

/-- In every state of the Recorder an idle tick shifts the synchroniser by one stage. -/
theorem exec_idleTick_shifts (p : Pipe) (s : State) :
    ∃ t, exec (selectRow p (.recorder .idle) s) s = .next t ∧ (t.pipe p).rcr.fprev = (s.pipe p).rcr.s2 ∧
      (t.pipe p).rcr.s2 = (s.pipe p).rcr.s1 ∧ (t.pipe p).rcr.s1 = forceOut (s.pipe p.peer).rcr := by
  have hrow {sel : RecSt → Bool} {body : TickInput → PipelineState → PipelineState} (hsel : sel (s.pipe p).rcr.st = true) :
      ∃ t, recorderStep sel body p .idle s = .next t ∧ (t.pipe p).rcr.fprev = (s.pipe p).rcr.s2 ∧
        (t.pipe p).rcr.s2 = (s.pipe p).rcr.s1 ∧ (t.pipe p).rcr.s1 = forceOut (s.pipe p.peer).rcr := by
    refine ⟨_, recorderStep_idle hsel rfl rfl, ?_⟩
    rw [State.setPipe_pipe]
    exact ⟨rfl, rfl, rfl⟩
  simp only [selectRow, recorderRow]
  split <;> exact hrow (by rw [‹(s.pipe p).rcr.st = _›]; rfl)

/-- Settles O57: each tick shifts the synchroniser by one stage, and the first takes the peer's force into it. -/
theorem forceWireIsSeenOnTheThirdTick : Obligations.ForceWireIsSeenOnTheThirdTick := by
  intro p s
  obtain ⟨t1, h1, hfprev1, hs2_1, hs1_1⟩ := exec_idleTick_shifts p s
  obtain ⟨t2, h2, hfprev2, hs2_2, -⟩ := exec_idleTick_shifts p t1
  obtain ⟨t3, h3, hfprev3, -, -⟩ := exec_idleTick_shifts p t2
  have hforce : (t2.pipe p).rcr.s2 = decide ((s.pipe p.peer).rcr.st = .fillPostTrig) := hs2_2.trans hs1_1
  refine ⟨t1, t2, t3, ?_, ?_, ?_, hfprev1, hfprev2.trans hs2_1, hfprev3.trans hforce, hforce⟩ <;>
    simp only [runAgent, andThen, h1, h2, h3]

/-! ### Where a tick's action writes (R303) -/

/-- `m'` is `m` after a record write at `a` where `c` holds, and `m` otherwise. -/
def WrittenIf (c : Bool) (a : Word) (m m' : Memory) : Prop := (c = false → m' = m) ∧ (c = true → ∃ w, m' = ringWrite m a.toNat w)

theorem writtenIf_false (a : Word) (m : Memory) : WrittenIf false a m m := ⟨fun _ => rfl, nofun⟩

theorem writtenIf_true (a : Word) (m : Memory) (w : Word) : WrittenIf true a m (ringWrite m a.toNat w) := ⟨nofun, fun _ => ⟨w, rfl⟩⟩

/-- Where the action of the row `sel` writes a record, it writes one at `addr`, and otherwise it leaves the ring (R300). -/
def WritesAt (sel : RecSt → Bool) (body : TickInput → PipelineState → PipelineState) (addr : RecorderState → Word) : Prop :=
  ∀ i u, sel u.rcr.st = true → WrittenIf (tickWrites u.rcr.st i) (addr u.rcr) u.ring (body i u).ring

section Bodies

variable (par : Params) (p : Pipe)

theorem writeItem_writtenIf (y : Option TrigOut) (q : PipelineState) :
    WrittenIf y.isSome q.rcr.cursor q.ring (writeItem par p y q).ring := by
  cases y with
  | none => exact writtenIf_false _ _
  | some y => exact writtenIf_true _ _ _

theorem extTrigger_writtenIf (i : TickInput) (q : PipelineState) :
    WrittenIf i.y.isSome q.rcr.cursor q.ring (extTrigger par p i q).ring := writeItem_writtenIf par p i.y (markTrigger q)

theorem idleBody_writesAt : WritesAt (· == .idle) (idleBody par p) fun r => (initCapture par p r).cursor := by
  intro i u hu
  rw [eq_of_beq hu, tickWrites]
  cases hrise : i.rise with
  | true =>
    rw [idleBody_rising hrise, Bool.and_true]
    exact writeItem_writtenIf par p i.y { u with rcr := { initCapture par p u.rcr with st := .forced } }
  | false =>
    rw [idleBody_quiet hrise, Bool.and_false]
    exact writtenIf_false _ _

theorem preBody_writesAt : WritesAt (· == .fillPreTrig) (preBody par p) RecorderState.cursor := by
  intro i u hu
  rw [eq_of_beq hu, tickWrites, Bool.and_true]
  cases hrise : i.rise with
  | true => rw [preBody_rising hrise]; exact extTrigger_writtenIf par p i u
  | false => rw [preBody_quiet hrise (eq_of_beq hu) rfl]; exact writeItem_writtenIf par p i.y u

theorem waitBody_writesAt : WritesAt (· == .waitTrigger) (waitBody par p) RecorderState.cursor := by
  intro i u hu
  rw [eq_of_beq hu, tickWrites, Bool.and_true]
  cases hown : i.y.any (·.trig) with
  | true =>
    obtain ⟨y, hy, htrig⟩ := (Option.any_eq_true _ _).mp hown
    rw [waitBody_own hy htrig, hy]
    exact writtenIf_true _ _ _
  | false =>
    cases hrise : i.rise with
    | true => rw [waitBody_rising hown hrise]; exact extTrigger_writtenIf par p i u
    | false => rw [waitBody_quiet hown hrise]; exact writeItem_writtenIf par p i.y u

theorem postBody_writesAt : WritesAt (· == .fillPostTrig) (postBody par p) RecorderState.cursor := by
  intro i u hu
  rw [eq_of_beq hu, tickWrites, Bool.and_true, postBody_eq rfl]
  exact writeItem_writtenIf par p i.y u

theorem forcedBody_writesAt : WritesAt (· == .forced) (forcedBody par p) RecorderState.cursor := by
  intro i u hu
  rw [eq_of_beq hu, tickWrites]
  cases hf : i.f with
  | true => rw [forcedBody_high hf, Bool.and_true]; exact writeItem_writtenIf par p i.y u
  | false => rw [forcedBody_low hf, Bool.and_false]; exact writtenIf_false _ _

end Bodies

/-! ### What an instruction stores (R70, R303) -/

/-- Where an outcome of `s` is a next state, the only ring change on the way to it is one record write at `a`, and none without an `a`. -/
def StoresAt (a : Option (Pipe × Nat)) (s : State) (o : Outcome State Fault Refusal) : Prop :=
  ∀ t, o = .next t → ∀ r,
    ((∀ x, a ≠ some (r, x)) → (t.pipe r).ring = (s.pipe r).ring) ∧
    (∀ x, a = some (r, x) → ∃ w, (t.pipe r).ring = ringWrite (s.pipe r).ring x w)

section Shapes

variable {s : State} {p : Pipe}

theorem storesAt_none_of_ring_eq {t : State} (h : ∀ r, (t.pipe r).ring = (s.pipe r).ring) : StoresAt none s (.next t) := by
  rintro _ ⟨⟩ r
  exact ⟨fun _ => h r, nofun⟩

theorem storesAt_none_self : StoresAt none s (.next s) := storesAt_none_of_ring_eq fun _ => rfl

/-- The peer's ring is out of reach (44_pipeline.md R363). -/
theorem storesAt_setPipe {q : PipelineState} {c : Bool} {a : Word} (h : WrittenIf c a (s.pipe p).ring q.ring) :
    StoresAt (if c then some (p, a.toNat) else none) s (.next (s.setPipe p q)) := by
  rintro _ ⟨⟩ r
  obtain ⟨hkept, hwritten⟩ := h
  by_cases hr : r = p
  · subst hr
    rw [State.setPipe_pipe]
    cases c with
    | false => exact ⟨fun _ => hkept rfl, nofun⟩
    | true =>
      refine ⟨fun hne => absurd rfl (hne _), ?_⟩
      rintro _ ⟨⟩
      exact hwritten rfl
  · rw [State.setPipe_pipe_of_ne s q hr]
    refine ⟨fun _ => rfl, fun x hx => absurd ?_ hr⟩
    cases c <;> cases hx
    rfl

theorem hostRead_storesNothing (v : Word) : StoresAt none s (hostRead v s) :=
  storesAt_none_of_ring_eq fun r => by rw [State.withHostRd_pipe]

theorem hostWrite_storesNothing {f : PipelineState → PipelineState} (h : (f (s.pipe p)).ring = (s.pipe p).ring) :
    StoresAt none s (hostWrite p f s) :=
  storesAt_setPipe (c := false) (a := 0) (by rw [h]; exact writtenIf_false _ _)

theorem bankWrite_storesNothing (f : Bank → Bank) : StoresAt none s (bankWrite p f s) := hostWrite_storesNothing rfl

theorem deliver_storesNothing (b : SymByte) : StoresAt none s (deliver p b s) := by
  refine hostWrite_storesNothing ?_
  split <;> rfl

theorem agentStep_storesNothing {act : PipelineState → Option PipelineState}
    (hact : ∀ q, act (s.pipe p) = some q → q.ring = (s.pipe p).ring) : StoresAt none s (agentStep p act s) := by
  intro t ht
  rcases agentStep_next ht with ⟨_, rfl⟩ | ⟨q, hq, rfl⟩
  · exact storesAt_none_self _ rfl
  · exact hostWrite_storesNothing (f := fun _ => q) (hact q hq) _ rfl

theorem conditionalWrite_storesNothing {c : Prop} [Decidable c] {f : PipelineState → PipelineState}
    (h : (f (s.pipe p)).ring = (s.pipe p).ring) : StoresAt none s (if c then hostWrite p f s else ignoredWrite s) := by
  split
  · exact hostWrite_storesNothing h
  · exact storesAt_none_self

theorem execWrTrigSize_storesNothing (v : Word) : StoresAt none s (execWrTrigSize p v s) := by
  unfold execWrTrigSize
  split
  · rintro _ ⟨⟩
  · exact bankWrite_storesNothing _

/-- A Recorder row stores where its action writes and the tick is taken (R300, R314). -/
theorem recorderStep_storesAt {sel : RecSt → Bool} {body : TickInput → PipelineState → PipelineState} {addr : RecorderState → Word}
    (hbody : WritesAt sel body addr) (t : Tick) :
    StoresAt (tickStoreAddress sel p t (s.pipe p) (addr (s.pipe p).rcr)) s (recorderStep sel body p t s) := by
  cases hsel : sel (s.pipe p).rcr.st with
  | false =>
    rw [recorderStep_unselected hsel, tickStoreAddress, hsel]
    exact storesAt_none_self
  | true =>
    cases hitem : tickItem t (s.pipe p) with
    | none =>
      rw [recorderStep_notEnabled (by rw [hitem]; rfl), tickStoreAddress, tickStores, hitem, Bool.and_false]
      exact storesAt_none_self
    | some taken =>
      obtain ⟨y, q1⟩ := taken
      obtain ⟨hring, hrcr⟩ := tickItem_kept hitem
      have hstores : tickStores t (s.pipe p) = tickWrites (s.pipe p).rcr.st (tickSees y (s.pipe p).rcr) := by rw [tickStores, hitem]
      have hwritten := hbody (tickSees y (s.pipe p).rcr) q1 (by rw [hrcr]; exact hsel)
      rw [hring, hrcr, ← hstores] at hwritten
      rw [tickStoreAddress, hsel, Bool.true_and]
      cases hstalled : tickStores t (s.pipe p) && !sinkReady t with
      | true =>
        obtain ⟨hst, hsink⟩ := Bool.and_eq_true_iff.mp hstalled
        rw [Bool.not_eq_true'] at hsink
        rw [recorderStep_notEnabled (by rw [hitem, hst, hsink]; rfl), hsink, Bool.and_false]
        exact storesAt_none_self
      | false =>
        have hready : (tickStores t (s.pipe p) && sinkReady t) = tickStores t (s.pipe p) := by
          revert hstalled
          cases tickStores t (s.pipe p) <;> simp
        rw [hready, recorderStep_taken hsel hitem (by rwa [← hstores]) rfl rfl]
        exact storesAt_setPipe hwritten

end Shapes

theorem exec_storesAt (i : Instr) (s : State) : StoresAt (storeAddress i s) s (exec i s) := by
  cases i with
  | wrFilterEnable p _ | wrFilterConfig p _ | wrTlpDllpTimeout p _ | wrTrigArmed p _ | wrRecMode p _ | wrRecOffset p _
  | wrRecSize p _ =>
    dsimp only [exec, execWrFilterEnable, execWrFilterConfig, execWrTlpDllpTimeout, execWrTrigArmed, execWrRecMode, execWrRecOffset,
      execWrRecSize]
    exact bankWrite_storesNothing _
  | wrTrigSize p v => exact execWrTrigSize_storesNothing v
  | rdFilterEnable p | rdFilterConfig p | rdTlpDllpTimeout p | rdTrigArmed p | rdTrigSize p | rdRecMode p | rdRecOffset p
  | rdRecSize p | rdPattern p _ | rdStatusTriggered p | rdStatusFinished p | rdStatusTrigAddr p | rdStatusState p | rdGeomBase p
  | rdGeomLength p | rdGeomChunk p | rdGeomStep p | rdRecStart p | rdRecStop p => exact hostRead_storesNothing _
  | start p _ | stop p _ | wrPattern p _ _ => exact conditionalWrite_storesNothing rfl
  | wrStatusTriggered p _ | wrStatusFinished p _ | wrStatusTrigAddr p _ | wrStatusState p _ | wrGeomBase p _ | wrGeomLength p _
  | wrGeomChunk p _ | wrGeomStep p _ => exact storesAt_none_self
  | com p | skp p | fts p | idl p | stp p | sdp p | endSym p | d215 p | d102 p | d52 p | kOther p _ | dOther p _ =>
    exact deliver_storesNothing _
  | align p =>
    refine agentStep_storesNothing fun _ h => ?_
    obtain ⟨_, _, _, _, _, rfl⟩ := alignAction_some h
    rfl
  | label p =>
    refine agentStep_storesNothing fun _ h => ?_
    obtain ⟨_, _, _, _, rfl⟩ := labelAction_some h
    rfl
  | filtWriteFind p | filtWriteOsbody p | filtWritePkt p | filtWritePass p =>
    refine agentStep_storesNothing fun _ h => ?_
    obtain ⟨_, _, _, _, _, _, rfl⟩ := writerAction_some h
    rfl
  | filtReadPass p | filtReadSelect p | filtReadTsins p | filtReadDrain p =>
    refine agentStep_storesNothing fun _ h => ?_
    obtain ⟨_, _, _, rfl⟩ := readerAction_some h
    rfl
  | trig p =>
    refine agentStep_storesNothing fun _ h => ?_
    obtain ⟨_, _, _, rfl⟩ := trigAction_some h
    rfl
  | recTickIdle p t => exact recorderStep_storesAt (idleBody_writesAt s.par p) t
  | recTickPre p t => exact recorderStep_storesAt (preBody_writesAt s.par p) t
  | recTickWait p t => exact recorderStep_storesAt (waitBody_writesAt s.par p) t
  | recTickPost p t => exact recorderStep_storesAt (postBody_writesAt s.par p) t
  | recTickDoneAbort p t =>
    refine agentStep_storesNothing fun _ h => ?_
    obtain ⟨_, _, _, hitem, _, rfl⟩ := tickAction_some h
    obtain ⟨hring, _⟩ := tickItem_kept hitem
    exact hring
  | recTickForced p t => exact recorderStep_storesAt (forcedBody_writesAt s.par p) t
  | clock => exact storesAt_none_of_ring_eq fun r => by rw [State.withClock_pipe]

/-- Settles O23: the third clause is the first where nothing is stored, and a read beside the write where something is. -/
theorem ringMemoryChangesOnlyAtTheStoreAddress : Obligations.RingMemoryChangesOnlyAtTheStoreAddress := by
  intro i s t p ht
  obtain ⟨hkept, hwritten⟩ := exec_storesAt i s t ht p
  refine ⟨hkept, hwritten, fun a ha => ?_⟩
  by_cases hstored : ∃ b, storeAddress i s = some (p, b)
  · obtain ⟨b, hb⟩ := hstored
    obtain ⟨w, hw⟩ := hwritten b hb
    rw [hw, ringRead_ringWrite_other _ w]
    rintro rfl
    exact ha hb
  · rw [hkept (not_exists.mp hstored)]

end Sys2Proof.Machine
end

section
/-! PROOF. The captured window: what a Recorder holds after each item from START to DONE (43_recorder.md R312). -/

namespace Sys2Proof.Machine

open Sys2Proof.Config Host

/-! ### The addresses of successive records (R303, R304) -/

/-- The address of record `n` of a capture, counted from its first at BASE_P. -/
def recordSlot (par : Params) (p : Pipe) (n : Nat) : Nat := par.base p + n * par.addrStep % par.length p

section Slots

variable {par : Params} {p : Pipe} {m n : Nat}

theorem recordSlot_zero : recordSlot par p 0 = par.base p := by rw [recordSlot, Nat.zero_mul, Nat.zero_mod, Nat.add_zero]

theorem inRing_recordSlot (hv : par.Valid) : InRing par p (recordSlot par p n) := by
  obtain ⟨hlen, hdvd, _, _⟩ := hv.ringValid p
  refine ⟨Nat.le_add_right _ _, Nat.add_lt_add_left (Nat.mod_lt _ hlen) _, ?_⟩
  rw [recordSlot, Nat.add_sub_cancel_left, Nat.mod_mod_of_dvd _ (Nat.dvd_of_mod_eq_zero hdvd), Nat.mul_mod_left]

/-- The cursor visits the slots in order. -/
theorem nextCursor_recordSlot {c : Word} (hv : par.Valid) (hc : c.toNat = recordSlot par p n) :
    (nextCursor par p c).toNat = recordSlot par p (n + 1) := by
  obtain ⟨_, hnext, _⟩ := cursorAdvancesAndWraps par p c hv (hc ▸ inRing_recordSlot hv)
  rw [hnext, hc, recordSlot, Nat.add_sub_cancel_left, Nat.mod_add_mod, recordSlot, Nat.succ_mul]

/-- Records less than a ring apart stand at different addresses. -/
theorem recordSlot_ne (hv : par.Valid) (hmn : m < n) (hnear : n * par.addrStep < m * par.addrStep + par.length p) :
    recordSlot par p m ≠ recordSlot par p n := by
  obtain ⟨_, _, _, hstep, _⟩ := hv
  have hlt : m * par.addrStep < n * par.addrStep := Nat.mul_lt_mul_of_pos_right hmn hstep
  intro heq
  have hdvd : par.length p ∣ n * par.addrStep - m * par.addrStep :=
    (Nat.modEq_iff_dvd' hlt.le).mp (Nat.add_left_cancel heq)
  have := Nat.le_of_dvd (by omega) hdvd
  omega

end Slots

/-! ### The state after each item -/

/-- The numbers and the items of a capture: `trig` is the item that triggers it. -/
structure Capture where
  pipe : Pipe
  off : Word
  size : Word
  trig : Nat
  items : List TrigOut
  rest : List TrigOut

namespace Capture

/-- The items end with the last one that the capture takes, and the first trigger at or after item OFFSET is item `trig`. -/
structure Triggers (c : Capture) : Prop where
  one_le_size : 1 ≤ c.size.toNat
  off_le_trig : c.off.toNat ≤ c.trig
  length_eq : c.items.length = c.trig + c.size.toNat
  trig_at : ∃ y, c.items[c.trig]? = some y ∧ y.trig = true
  quiet_before : ∀ n y, c.off.toNat ≤ n → n < c.trig → c.items[n]? = some y → y.trig = false

/-- What no tick of the capture changes. -/
structure Configured (c : Capture) (s : State) : Prop where
  valid : s.par.Valid
  includesTrig : s.par.postIncludesTrig = true
  raw : (s.pipe c.pipe).bank.recMode = .raw
  offset_eq : (s.pipe c.pipe).bank.recOffset = c.off
  size_eq : (s.pipe c.pipe).bank.recSize = c.size
  noForce : (s.pipe c.pipe.peer).rcr.st ≠ .fillPostTrig

/-- The Recorder's state after `n` items. -/
def phase (c : Capture) (n : Nat) : RecSt :=
  if n < c.off.toNat then .fillPreTrig
  else if n ≤ c.trig then .waitTrigger
  else if n < c.trig + c.size.toNat then .fillPostTrig
  else .done

/-- The Recorder after `n` items. -/
structure RecorderAfter (c : Capture) (par : Params) (n : Nat) (r : RecorderState) : Prop where
  st_eq : r.st = c.phase n
  cursor_eq : r.cursor.toNat = recordSlot par c.pipe n
  first_eq : r.first = decide (n = 0)
  preCnt_eq : n ≤ c.off.toNat → r.preCnt.toNat = n
  postCnt_eq : c.trig < n → r.postCnt.toNat = n - c.trig
  trigAddr_eq : c.trig < n → r.trigAddr.toNat = recordSlot par c.pipe c.trig
  s1_eq : r.s1 = false
  s2_eq : r.s2 = false

/-- The ring after `n` items: the records of the last items, as many as the ring has room for. -/
def RingAfter (c : Capture) (par : Params) (n : Nat) (m : Memory) : Prop :=
  ∀ k y, k < n → n * par.addrStep ≤ k * par.addrStep + par.length c.pipe → c.items[k]? = some y →
    ringRead m (recordSlot par c.pipe k) = some (pack y.item (decide (k = c.trig)) (decide (k = 0)))

/-- The machine after `n` items. -/
structure After (c : Capture) (n : Nat) (s : State) : Prop where
  configured : c.Configured s
  queue_eq : (s.pipe c.pipe).qTrg = c.items.drop n ++ c.rest
  recorder : c.RecorderAfter s.par n (s.pipe c.pipe).rcr
  ring : c.RingAfter s.par n (s.pipe c.pipe).ring

section Step

variable {c : Capture} {par : Params} {n : Nat} {s : State} {y : TrigOut} {m : Memory}

/-- The pipeline `q` after item `n`, which is `y`, is written at the cursor with the trigger bit `tb` and the Recorder is `r`. -/
def wrote (c : Capture) (n : Nat) (y : TrigOut) (tb : Bool) (q : PipelineState) (r : RecorderState) : PipelineState :=
  { q with
    qTrg := c.items.drop (n + 1) ++ c.rest
    ring := ringWrite q.ring q.rcr.cursor.toNat (pack y.item tb q.rcr.first)
    rcr := r }

theorem Configured.setPipe {q : PipelineState} (h : c.Configured s) (hbank : q.bank = (s.pipe c.pipe).bank) :
    c.Configured (s.setPipe c.pipe q) := by
  obtain ⟨hv, hincl, hraw, hoff, hsize, hforce⟩ := h
  rw [← hbank] at hraw hoff hsize
  constructor <;> simpa only [State.setPipe_par, State.setPipe_pipe, State.setPipe_pipe_peer]

theorem queue_head (h : c.After n s) (hy : c.items[n]? = some y) :
    (s.pipe c.pipe).qTrg = y :: (c.items.drop (n + 1) ++ c.rest) := by
  obtain ⟨hn, rfl⟩ := List.getElem?_eq_some_iff.mp hy
  rw [h.queue_eq, List.drop_eq_getElem_cons hn, List.cons_append]

theorem no_rise (h : c.After n s) : ¬ ((s.pipe c.pipe).rcr.s2 = true ∧ (s.pipe c.pipe).rcr.fprev = false) := by
  rw [h.recorder.s2_eq]
  simp

theorem peer_low (h : c.After n s) : decide ((s.pipe c.pipe.peer).rcr.st = .fillPostTrig) = false :=
  decide_eq_false h.configured.noForce

theorem toNat_add_one {x bound : Word} (hx : x.toNat = n) (h : n < bound.toNat) : (x + 1).toNat = n + 1 := by
  have hbound := bound.isLt
  have hone : (1 : Word).toNat = 1 := rfl
  rw [BitVec.toNat_add_of_lt (by omega), hx, hone]

theorem phase_fill (h : n < c.off.toNat) : c.phase n = .fillPreTrig := if_pos h

theorem phase_wait (hlow : c.off.toNat ≤ n) (hhigh : n ≤ c.trig) : c.phase n = .waitTrigger := by
  rw [phase, if_neg (by omega), if_pos hhigh]

theorem phase_post (hc : c.Triggers) (hlow : c.trig < n) (hhigh : n < c.trig + c.size.toNat) : c.phase n = .fillPostTrig := by
  have := hc.off_le_trig
  rw [phase, if_neg (by omega), if_neg (by omega), if_pos hhigh]

theorem phase_done (hc : c.Triggers) (h : c.trig + c.size.toNat ≤ n) : c.phase n = .done := by
  have := hc.off_le_trig
  have := hc.one_le_size
  rw [phase, if_neg (by omega), if_neg (by omega), if_neg (by omega)]

/-- The count test against OFFSET gives the phase (R306). -/
theorem phase_of_preCnt {cnt : Word} (hcnt : cnt.toNat = n) (hn : n ≤ c.trig) :
    (if c.off.toNat ≤ cnt.toNat then RecSt.waitTrigger else .fillPreTrig) = c.phase n := by
  rw [hcnt]
  split
  · rw [phase_wait ‹_› hn]
  · rw [phase_fill (by omega)]

/-- The count test against SIZE gives the phase (R307, R308). -/
theorem phase_of_postCnt {cnt : Word} (hc : c.Triggers) (hcnt : cnt.toNat = n - c.trig) (hn : c.trig < n) :
    (if c.size.toNat ≤ cnt.toNat then RecSt.done else .fillPostTrig) = c.phase n := by
  rw [hcnt]
  split
  · rw [phase_done hc (by omega)]
  · rw [phase_post hc hn (by omega)]

/-- One item takes the capture from `n` to `n + 1` items. -/
def Ticks (c : Capture) (n : Nat) (y : TrigOut) (s : State) : Prop :=
  ∃ r, exec (selectRow c.pipe (.recorder (.item true)) s) s =
      .next (s.setPipe c.pipe (c.wrote n y (decide (n = c.trig)) (s.pipe c.pipe) r)) ∧
    c.RecorderAfter s.par (n + 1) r

/-- Every row of a capture writes the item at the cursor and advances; the rows differ in the trigger bit, the phase after it, the trigger
address and the counts. -/
theorem ticks_of_exec (h : c.After n s) {i : Instr} {tb : Bool} {st : RecSt} {addr pre post : Word}
    (hrow : selectRow c.pipe (.recorder (.item true)) s = i)
    (hexec : exec i s = .next (s.setPipe c.pipe (c.wrote n y tb (s.pipe c.pipe)
      { st := st, cursor := nextCursor s.par c.pipe (s.pipe c.pipe).rcr.cursor, first := false, trigAddr := addr, preCnt := pre
        postCnt := post, s1 := false, s2 := (s.pipe c.pipe).rcr.s1, fprev := (s.pipe c.pipe).rcr.s2 })))
    (htb : tb = decide (n = c.trig)) (hst : st = c.phase (n + 1)) (hpre : n + 1 ≤ c.off.toNat → pre.toNat = n + 1)
    (hpost : c.trig < n + 1 → post.toNat = n + 1 - c.trig) (haddr : c.trig < n + 1 → addr.toNat = recordSlot s.par c.pipe c.trig) :
    c.Ticks n y s := by
  subst hrow htb
  exact ⟨_, hexec, hst, nextCursor_recordSlot h.configured.valid h.recorder.cursor_eq, rfl, hpre, hpost, haddr, rfl,
    h.recorder.s1_eq⟩

/-- In FILL_PRE_TRIG the item is counted (R306). -/
theorem ticks_fill (hc : c.Triggers) (h : c.After n s) (hy : c.items[n]? = some y) (hn : n < c.off.toNat) : c.Ticks n y s := by
  have hst := h.recorder.st_eq.trans (phase_fill hn)
  obtain ⟨_, hitem⟩ := preTriggerFillWritesAndCounts _ _ _ _ rfl hst (peer_low h).symm (no_rise h)
  have hexec := hitem y _ (queue_head h hy)
  rw [if_pos (.inl h.configured.raw), h.configured.offset_eq] at hexec
  have hcnt := toNat_add_one (h.recorder.preCnt_eq hn.le) hn
  have hoff := hc.off_le_trig
  exact ticks_of_exec h (by rw [selectRow, recorderRow, hst]) hexec (decide_eq_false (by omega)).symm
    (phase_of_preCnt hcnt (by omega)) (fun _ => hcnt) (by omega) (by omega)

/-- In WAIT_TRIGGER an item before the trigger is retained (R307). -/
theorem ticks_wait (hc : c.Triggers) (h : c.After n s) (hy : c.items[n]? = some y) (hlow : c.off.toNat ≤ n) (hhigh : n < c.trig) :
    c.Ticks n y s := by
  have hst := h.recorder.st_eq.trans (phase_wait hlow hhigh.le)
  obtain ⟨_, hretained, _⟩ := waitingRecorderRetainsUntilItsTrigger _ _ _ _ rfl hst (peer_low h).symm
  have hexec := hretained y _ (no_rise h) (queue_head h hy) (hc.quiet_before n y hlow hhigh hy)
  exact ticks_of_exec h (by rw [selectRow, recorderRow, hst]) hexec (decide_eq_false (by omega)).symm
    (hst.trans (phase_wait (by omega) hhigh).symm) (by omega) (by omega) (by omega)

/-- The trigger starts the post-trigger count at 1 (R307). -/
theorem ticks_trigger (hc : c.Triggers) (h : c.After c.trig s) (hy : c.items[c.trig]? = some y) : c.Ticks c.trig y s := by
  have htrig : y.trig = true := by
    obtain ⟨z, hz, htrig⟩ := hc.trig_at
    rwa [← Option.some.inj (hz.symm.trans hy)]
  have hoff := hc.off_le_trig
  have hst := h.recorder.st_eq.trans (phase_wait hoff le_rfl)
  obtain ⟨_, _, hown⟩ := waitingRecorderRetainsUntilItsTrigger _ _ _ _ rfl hst (peer_low h).symm
  have hexec := hown y _ (queue_head h hy) htrig
  rw [if_pos ⟨h.configured.includesTrig, .inl h.configured.raw⟩, h.configured.size_eq] at hexec
  have hcnt : (1 : Word).toNat = c.trig + 1 - c.trig := (Nat.add_sub_cancel_left ..).symm
  exact ticks_of_exec h (by rw [selectRow, recorderRow, hst]) hexec (decide_eq_true rfl).symm
    (phase_of_postCnt hc hcnt (Nat.lt_succ_self _)) (by omega) (fun _ => hcnt) (fun _ => h.recorder.cursor_eq)

/-- In FILL_POST_TRIG the item is counted (R308). -/
theorem ticks_post (hc : c.Triggers) (h : c.After n s) (hy : c.items[n]? = some y) (hlow : c.trig < n)
    (hhigh : n < c.trig + c.size.toNat) : c.Ticks n y s := by
  have hst := h.recorder.st_eq.trans (phase_post hc hlow hhigh)
  obtain ⟨_, hitem⟩ := postTriggerFillWritesUntilSize _ _ _ _ rfl hst (peer_low h).symm
  have hexec := hitem y _ (queue_head h hy)
  rw [if_pos (.inl h.configured.raw), h.configured.size_eq] at hexec
  have hcnt : ((s.pipe c.pipe).rcr.postCnt + 1).toNat = n + 1 - c.trig := by
    rw [toNat_add_one (h.recorder.postCnt_eq hlow) (by omega : n - c.trig < c.size.toNat), Nat.sub_add_comm hlow.le]
  have hoff := hc.off_le_trig
  exact ticks_of_exec h (by rw [selectRow, recorderRow, hst]) hexec (decide_eq_false (by omega)).symm
    (phase_of_postCnt hc hcnt (by omega)) (by omega) (fun _ => hcnt) (fun _ => h.recorder.trigAddr_eq hlow)

/-- The phase of the item decides the row that takes it. -/
theorem ticks (hc : c.Triggers) (h : c.After n s) (hn : n < c.items.length) (hy : c.items[n]? = some y) : c.Ticks n y s := by
  rw [hc.length_eq] at hn
  rcases Nat.lt_or_ge n c.off.toNat with hfill | hlow
  · exact ticks_fill hc h hy hfill
  · rcases Nat.lt_trichotomy n c.trig with hwait | rfl | hpost
    · exact ticks_wait hc h hy hlow hwait
    · exact ticks_trigger hc h hy
    · exact ticks_post hc h hy hpost hn

/-- A record goes to the next slot, and leaves the records that the ring still has room for. -/
theorem RingAfter.ringWrite {first : Bool} (hv : par.Valid) (h : c.RingAfter par n m) (hy : c.items[n]? = some y)
    (hfirst : first = decide (n = 0)) :
    c.RingAfter par (n + 1) (ringWrite m (recordSlot par c.pipe n) (pack y.item (decide (n = c.trig)) first)) := by
  subst hfirst
  intro k z hk hroom hz
  rcases Nat.lt_succ_iff_lt_or_eq.mp hk with hlt | rfl
  · rw [Nat.succ_mul] at hroom
    obtain ⟨_, _, _, hstep, _⟩ := id hv
    rw [ringRead_ringWrite_other _ _ (recordSlot_ne hv hlt (by omega))]
    exact h k z hlt (by omega) hz
  · rw [ringRead_ringWrite_same, Option.some.inj (hy.symm.trans hz)]

theorem After.step (hc : c.Triggers) (h : c.After n s) (hn : n < c.items.length) :
    ∃ t, exec (selectRow c.pipe (.recorder (.item true)) s) s = .next t ∧ t.par = s.par ∧ c.After (n + 1) t := by
  have hy := List.getElem?_eq_getElem hn
  obtain ⟨r, hexec, hr⟩ := ticks hc h hn hy
  have hring := h.ring.ringWrite h.configured.valid hy h.recorder.first_eq
  rw [← h.recorder.cursor_eq] at hring
  refine ⟨_, hexec, State.setPipe_par _ _ _, h.configured.setPipe rfl, ?_, ?_, ?_⟩ <;>
    simp only [State.setPipe_pipe, State.setPipe_par, wrote]
  · exact hr
  · exact hring

end Step

/-- After START, no item taken: nothing has been written yet. -/
theorem after_start {c : Capture} {s : State} {fp : Bool} (hs : c.Configured s) (hq : (s.pipe c.pipe).qTrg = c.items ++ c.rest)
    (hrcr : (s.pipe c.pipe).rcr =
      { st := if c.off = 0 then .waitTrigger else .fillPreTrig
        cursor := BitVec.ofNat 32 (s.par.base c.pipe), first := true, trigAddr := BitVec.ofNat 32 (s.par.base c.pipe)
        preCnt := 0, postCnt := 0, s1 := false, s2 := false, fprev := fp }) : c.After 0 s := by
  refine ⟨hs, hq, ?_, fun k y hk => absurd hk (Nat.not_lt_zero k)⟩
  obtain ⟨hlen, _, _, hlim⟩ := hs.valid.ringValid c.pipe
  have hbase : (BitVec.ofNat 32 (s.par.base c.pipe)).toNat = s.par.base c.pipe := by
    rw [BitVec.toNat_ofNat, Nat.mod_eq_of_lt (Nat.lt_of_lt_of_le (Nat.lt_add_of_pos_right hlen) hlim)]
  have hst : (if c.off = 0 then RecSt.waitTrigger else .fillPreTrig) = c.phase 0 := by
    refine Eq.trans (if_congr ?_ rfl rfl) (phase_of_preCnt (cnt := 0) rfl (Nat.zero_le _))
    rw [← BitVec.toNat_inj]
    exact Nat.le_zero.symm
  rw [hrcr]
  exact ⟨hst, hbase.trans recordSlot_zero.symm, rfl, fun _ => rfl, nofun, nofun, rfl, rfl⟩

end Capture

/-! ### A run of items -/

/-- What each of `N` steps of an agent advances, the run advances to `N`. -/
theorem runAgent_advances {p : Pipe} {a : Agent} {N : Nat} {P : Nat → State → Prop}
    (hstep : ∀ n s, n < N → P n s → ∃ t, exec (selectRow p a s) s = .next t ∧ P (n + 1) t) {k n : Nat} {s : State} (hk : n + k = N)
    (h : P n s) : ∃ t, runAgent p a k s = .next t ∧ P N t := by
  induction k generalizing n s with
  | zero => exact ⟨s, rfl, hk ▸ h⟩
  | succ k ih =>
    obtain ⟨t, hexec, ht⟩ := hstep n s (by omega) h
    obtain ⟨u, hrun, hu⟩ := ih (by omega) ht
    exact ⟨u, by rw [runAgent, hexec]; exact hrun, hu⟩

/-! ### The window (R312) -/

/-- The address formulas of R312, with the trigger record in slot `off + d`, give the slots from `d` on. -/
theorem window_eq_recordSlot {par : Params} {p : Pipe} {off d addr : Nat} (haddr : addr = recordSlot par p (off + d)) (k : Nat) :
    let base : Int := par.base p
    let length : Int := par.length p
    let unit : Int := par.addrStep
    let trigAddr : Int := addr
    let start : Int := base + (trigAddr - base - off * unit) % length
    base + (start - base + k * unit) % length = (recordSlot par p (d + k) : Nat) := by
  intro base length unit trigAddr start
  have hslot : trigAddr - base = (off + d) * unit % length := by
    simp [trigAddr, haddr, recordSlot, base, length, unit]
  have hstart : start - base = d * unit % length :=
    calc start - base = (trigAddr - base - off * unit) % length := add_sub_cancel_left _ _
      _ = ((off + d) * unit - off * unit) % length := by rw [hslot, Int.emod_sub_emod]
      _ = d * unit % length := by rw [← sub_mul, add_sub_cancel_left]
  rw [hstart, Int.emod_add_emod, ← add_mul]
  simp [recordSlot, base, length, unit]

/-- The Recorder takes all items of a capture. -/
theorem Capture.run {c : Capture} (hc : c.Triggers) {s : State} (h : c.After 0 s) :
    ∃ t, runAgent c.pipe (.recorder (.item true)) c.items.length s = .next t ∧ t.par = s.par ∧ c.After c.items.length t :=
  runAgent_advances (P := fun n u => u.par = s.par ∧ c.After n u)
    (fun _ _ hn ⟨hpar, h⟩ =>
      have ⟨v, hexec, hkept, hv⟩ := h.step hc hn
      ⟨v, hexec, hkept.trans hpar, hv⟩)
    (Nat.zero_add _) ⟨rfl, h⟩

/-- Settles O58: after all items the Recorder is DONE, and the window's records are the last OFFSET + SIZE it has written, for which the
ring has room. -/
theorem capturedWindowHoldsOffsetPlusSizeRecords : Obligations.CapturedWindowHoldsOffsetPlusSizeRecords := by
  intro p s off size ys rest j fp hv hincl hraw hoff hsize hpos hroom hrcr hforce hq hlen hle htrig hquiet
  let c : Capture := { pipe := p, off, size, trig := j, items := ys, rest }
  have hc : c.Triggers := ⟨hpos, hle, hlen, htrig, hquiet⟩
  obtain ⟨t, hrun, hpar, ht⟩ := Capture.run hc (Capture.after_start ⟨hv, hincl, hraw, hoff, hsize, hforce⟩ hq hrcr)
  obtain ⟨-, hqueue, hrec, hring⟩ := ht
  rw [hpar, show c.items.length = j + size.toNat from hlen] at hrec hring
  obtain ⟨d, rfl⟩ := Nat.exists_eq_add_of_le hle
  refine ⟨t, hrun, hrec.st_eq.trans (Capture.phase_done hc le_rfl), ?_, ?_⟩
  · rw [hqueue, List.drop_length, List.nil_append]
  · intro base length unit trigAddr start window
    have haddr := hrec.trigAddr_eq (Nat.lt_add_of_pos_right hpos)
    have hwindow k : window k = (recordSlot s.par p (d + k) : Nat) := window_eq_recordSlot haddr k
    rw [Nat.add_sub_cancel_left]
    refine ⟨?_, fun k hk => ?_⟩
    · rw [hwindow, Nat.add_comm d]
      exact congrArg Nat.cast haddr.symm
    · have hitem : ys[d + k]? = some ys[d + k] := List.getElem?_eq_getElem (by omega)
      have hfits : (off.toNat + d + size.toNat) * s.par.addrStep ≤ (d + k) * s.par.addrStep + s.par.length p :=
        calc (off.toNat + d + size.toNat) * s.par.addrStep
            = d * s.par.addrStep + (off.toNat + size.toNat) * s.par.addrStep := by ring
          _ ≤ (d + k) * s.par.addrStep + s.par.length p := Nat.add_le_add (Nat.mul_le_mul_right _ (Nat.le_add_right d k)) hroom
      have htb : decide (d + k = off.toNat + d) = decide (k = off.toNat) := decide_eq_decide.mpr (by omega)
      refine ⟨_, hitem, ?_⟩
      rw [hwindow, Int.toNat_natCast, ← htb]
      exact hring (d + k) _ (by omega) hfits hitem

end Sys2Proof.Machine
end

section
/-! PROOF. One scheduled word, the clock, and what one instruction's effect depends on and reaches: its own pipeline, the parameters, the
clock and, for a Recorder tick, the peer's force wire (44_pipeline.md R360 to R364, R367). -/

namespace Sys2Proof.Machine

open Sys2Proof.Config Host

/-- Settles O1: a step is one command, and this word's command is the instruction. -/
theorem stepRunsTheDecodedInstruction : Obligations.StepRunsTheDecodedInstruction :=
  fun _ _ _ _ hv hsched hdec _ => step_eq_runCommand hv hsched hdec

/-- Settles O19: the clock is a 32-bit value, so its sum with 1 wraps. -/
theorem clockStepAdvancesTheClockAlone : Obligations.ClockStepAdvancesTheClockAlone :=
  fun s => ⟨{ s with clock := s.clock + 1 }, rfl, rfl, BitVec.toNat_add s.clock 1⟩

/-! ### Effects -/

/-- What an instruction of a pipeline can do: put the pipeline in a state, return a value to the host, or be WR_TRIG_SIZE above MEM_SIZE. -/
inductive Effect where
  | move (q : PipelineState)
  | read (v : Word)
  | refuse

/-- The outcome of an effect of pipeline `p` at `s`. -/
def Effect.apply (p : Pipe) (s : State) : Effect → Outcome State Fault Refusal
  | .move q => .next (s.setPipe p q)
  | .read v => .next { s with hostRd := v }
  | .refuse => .refused .trigSizeAboveMemSize

/-- To a step of kind `k` of pipeline `p` the state `s'` looks like `s`: only a Recorder tick looks at the peer, at its force wire
(R363). -/
structure SameView (k : StepKind) (p : Pipe) (s s' : State) : Prop where
  par : s'.par = s.par
  clock : s'.clock = s.clock
  pipe : s'.pipe p = s.pipe p
  wire : k = .recorder → forceOut (s'.pipe p.peer).rcr = forceOut (s.pipe p.peer).rcr

theorem SameView.refl (k : StepKind) (p : Pipe) (s : State) : SameView k p s s := ⟨rfl, rfl, rfl, fun _ => rfl⟩

/-- The meaning `m` of a step of kind `k` has the same effect at every state that looks like `s`, and only a host read returns a value. -/
def IsLocal (k : StepKind) (p : Pipe) (s : State) (m : State → Outcome State Fault Refusal) : Prop :=
  ∃ e : Effect, (∀ s', SameView k p s s' → m s' = e.apply p s') ∧ ∀ v, e = .read v → k = .hostRead

section Shapes

variable {k : StepKind} {p : Pipe} {s : State}

theorem isLocal_move {m : State → Outcome State Fault Refusal} {q : PipelineState}
    (h : ∀ s', SameView k p s s' → m s' = .next (s'.setPipe p q)) : IsLocal k p s m := ⟨.move q, h, nofun⟩

theorem isLocal_hostRead {v : State → Word} (hv : ∀ s', SameView .hostRead p s s' → v s' = v s) :
    IsLocal .hostRead p s fun s' => hostRead (v s') s' :=
  ⟨.read (v s), fun s' h => congrArg (fun w => hostRead w s') (hv s' h), fun _ _ => rfl⟩

theorem isLocal_ignoredWrite : IsLocal k p s fun s' => ignoredWrite s' :=
  isLocal_move (q := s.pipe p) fun s' h => by rw [← h.pipe, State.setPipe_self, ignoredWrite_eq]

theorem isLocal_hostWrite {f : State → PipelineState → PipelineState} (hf : ∀ s', SameView k p s s' → f s' = f s) :
    IsLocal k p s fun s' => hostWrite p (f s') s' :=
  isLocal_move fun s' h => by rw [hostWrite_eq, hf s' h, h.pipe]

theorem isLocal_bankWrite (f : Bank → Bank) : IsLocal k p s fun s' => bankWrite p f s' :=
  isLocal_hostWrite (f := fun _ q => { q with bank := f q.bank }) fun _ _ => rfl

theorem isLocal_deliver (b : SymByte) : IsLocal k p s fun s' => deliver p b s' := isLocal_hostWrite fun _ _ => rfl

/-- START, STOP and WR PATTERN are such a write under a condition, and ignored otherwise. -/
theorem isLocal_conditionalWrite {c : State → Prop} [∀ s', Decidable (c s')] {f : State → PipelineState → PipelineState}
    (hc : ∀ s', SameView k p s s' → (c s' ↔ c s)) (hf : ∀ s', SameView k p s s' → f s' = f s) :
    IsLocal k p s fun s' => if c s' then hostWrite p (f s') s' else ignoredWrite s' := by
  obtain ⟨ew, hw, hwread⟩ := isLocal_hostWrite hf
  obtain ⟨ei, hi, hiread⟩ := isLocal_ignoredWrite (k := k) (p := p) (s := s)
  by_cases h : c s
  · exact ⟨ew, fun s' hs => (if_pos ((hc s' hs).mpr h)).trans (hw s' hs), hwread⟩
  · exact ⟨ei, fun s' hs => (if_neg (mt (hc s' hs).mp h)).trans (hi s' hs), hiread⟩

theorem isLocal_execWrTrigSize (v : Word) : IsLocal k p s fun s' => execWrTrigSize p v s' := by
  by_cases h : s.par.memSize < v.toNat
  · exact ⟨.refuse, fun s' hs => if_pos (by rwa [hs.par]), nofun⟩
  · obtain ⟨e, he, hread⟩ := isLocal_bankWrite (k := k) (p := p) (s := s) fun b => { b with trigSize := v.extractLsb' 0 9 }
    exact ⟨e, fun s' hs => (if_neg (by rwa [hs.par])).trans (he s' hs), hread⟩

theorem isLocal_agentStep {act : State → PipelineState → Option PipelineState} (hact : ∀ s', SameView k p s s' → act s' = act s) :
    IsLocal k p s fun s' => agentStep p (act s') s' :=
  isLocal_move fun s' h => by rw [agentStep_eq, hact s' h, h.pipe]

theorem isLocal_recorderStep {sel : RecSt → Bool} {body : Params → TickInput → PipelineState → PipelineState} (t : Tick) :
    IsLocal .recorder p s fun s' => recorderStep sel (body s'.par) p t s' :=
  isLocal_agentStep fun s' h => by rw [h.par, h.wire rfl]

end Shapes

/-- What an instruction of pipeline `p` does is a matter of `p`'s own view (R363, R364). -/
theorem exec_isLocal {i : Instr} {p : Pipe} (hp : instrPipe i = some p) (s : State) : IsLocal (stepKind i) p s (exec i) := by
  cases i with
  | wrFilterEnable _ _ | wrFilterConfig _ _ | wrTlpDllpTimeout _ _ | wrTrigArmed _ _ | wrRecMode _ _ | wrRecOffset _ _
  | wrRecSize _ _ =>
    cases hp
    change IsLocal .configWrite p s fun s' => exec _ s'
    dsimp only [exec, execWrFilterEnable, execWrFilterConfig, execWrTlpDllpTimeout, execWrTrigArmed, execWrRecMode, execWrRecOffset,
      execWrRecSize]
    exact isLocal_bankWrite _
  | wrTrigSize _ v => cases hp; exact isLocal_execWrTrigSize v
  | rdFilterEnable _ | rdFilterConfig _ | rdTlpDllpTimeout _ | rdTrigArmed _ | rdTrigSize _ | rdRecMode _ | rdRecOffset _
  | rdRecSize _ | rdPattern _ _ | rdStatusTriggered _ | rdStatusFinished _ | rdStatusTrigAddr _ | rdStatusState _ | rdGeomBase _
  | rdGeomLength _ | rdGeomChunk _ | rdGeomStep _ | rdRecStart _ | rdRecStop _ =>
    cases hp; exact isLocal_hostRead fun s' h => by simp only [h.par, h.pipe]
  | start _ _ => cases hp; exact isLocal_conditionalWrite (fun _ _ => Iff.rfl) fun s' h => by rw [h.par]
  | stop _ _ => cases hp; exact isLocal_conditionalWrite (fun _ _ => Iff.rfl) fun _ _ => rfl
  | wrPattern _ _ _ => cases hp; exact isLocal_conditionalWrite (fun s' h => by rw [h.par]) fun _ _ => rfl
  | wrStatusTriggered _ _ | wrStatusFinished _ _ | wrStatusTrigAddr _ _ | wrStatusState _ _ | wrGeomBase _ _ | wrGeomLength _ _
  | wrGeomChunk _ _ | wrGeomStep _ _ => cases hp; exact isLocal_ignoredWrite
  | com _ | skp _ | fts _ | idl _ | stp _ | sdp _ | endSym _ | d215 _ | d102 _ | d52 _ | kOther _ _ | dOther _ _ =>
    cases hp; exact isLocal_deliver _
  | align _ | filtReadPass _ | filtReadSelect _ | filtReadTsins _ | filtReadDrain _ | trig _ =>
    cases hp; exact isLocal_agentStep fun _ _ => rfl
  | label _ | filtWriteOsbody _ | filtWritePass _ => cases hp; exact isLocal_agentStep fun s' h => by rw [h.par]
  | filtWriteFind _ | filtWritePkt _ => cases hp; exact isLocal_agentStep fun s' h => by rw [h.par, h.clock]
  | recTickIdle p t => cases hp; exact isLocal_recorderStep (body := fun par => idleBody par p) t
  | recTickPre p t => cases hp; exact isLocal_recorderStep (body := fun par => preBody par p) t
  | recTickWait p t => cases hp; exact isLocal_recorderStep (body := fun par => waitBody par p) t
  | recTickPost p t => cases hp; exact isLocal_recorderStep (body := fun par => postBody par p) t
  | recTickDoneAbort p t => cases hp; exact isLocal_recorderStep (body := fun _ => doneBody) t
  | recTickForced p t => cases hp; exact isLocal_recorderStep (body := fun par => forcedBody par p) t
  | clock => cases hp

/-! ### What an effect leaves as it was -/

theorem Effect.apply_peer {e : Effect} {p : Pipe} {s t : State} (h : e.apply p s = .next t) : t.pipe p.peer = s.pipe p.peer := by
  cases e with
  | move q => cases h; exact State.setPipe_pipe_peer s p q
  | read v => cases h; exact State.withHostRd_pipe s v p.peer
  | refuse => cases h

/-- An effect of one pipeline is out of the other's view, unless a Recorder looks at the force wire. -/
theorem Effect.apply_sameView {e : Effect} {k : StepKind} {p r : Pipe} {s t : State} (hr : r.peer = p) (hk : k ≠ .recorder)
    (h : e.apply r s = .next t) : SameView k p s t := by
  subst hr
  refine ⟨?_, ?_, Effect.apply_peer h, fun hrec => absurd hrec hk⟩ <;> cases e <;> cases h
  · exact State.setPipe_par s r _
  · rfl
  · exact State.setPipe_clock s r _
  · rfl

/-- Effects of the two pipelines commute, except that two host reads leave the value of the later one. -/
theorem Effect.apply_comm {e f : Effect} {p : Pipe} {s : State} (hread : ∀ v w, ¬ (e = .read v ∧ f = .read w)) :
    andThen (e.apply p s) (fun t => f.apply p.peer t) = andThen (f.apply p.peer s) fun t => e.apply p t := by
  cases e with
  | move q =>
    cases f with
    | move r => exact congrArg Outcome.next (State.setPipe_comm s p q r)
    | read w => exact congrArg Outcome.next (State.setPipe_withHostRd s p q w).symm
    | refuse => rfl
  | read v =>
    cases f with
    | move r => exact congrArg Outcome.next (State.setPipe_withHostRd s p.peer r v)
    | read w => exact absurd ⟨rfl, rfl⟩ (hread v w)
    | refuse => rfl
  | refuse => cases f <;> rfl

theorem andThen_congr {o : Outcome State Fault Refusal} {f g : State → Outcome State Fault Refusal}
    (h : ∀ t, o = .next t → f t = g t) : andThen o f = andThen o g := by
  cases o with
  | next t => exact h t rfl
  | fault r => rfl
  | refused r => rfl

/-! ### The statements -/

/-- Settles O21: an instruction's effect is one of its own pipeline. -/
theorem peerPipelineIsUntouched : Obligations.PeerPipelineIsUntouched := by
  intro i s t p ht hp
  obtain ⟨e, he, _⟩ := exec_isLocal hp s
  exact Effect.apply_peer ((he s (.refl _ p s)).symm.trans ht)

/-- Settles O24: the two states look alike to the instruction, so it has one effect at both. -/
theorem pipelineDependsOnItselfClockAndForceWire : Obligations.PipelineDependsOnItselfClockAndForceWire := by
  intro i p s1 s2 t1 t2 hp hpar hclock hpipe hforce ht1 ht2
  obtain ⟨e, he, _⟩ := exec_isLocal hp s1
  rw [he s1 (.refl _ p s1)] at ht1
  rw [he s2 ⟨hpar.symm, hclock.symm, hpipe.symm, fun _ => hforce.symm⟩] at ht2
  cases e with
  | move q => cases ht1; cases ht2; rw [State.setPipe_pipe, State.setPipe_pipe]
  | read v => cases ht1; cases ht2; rw [State.withHostRd_pipe s1 v, State.withHostRd_pipe s2 v, hpipe]
  | refuse => cases ht1

/-- Settles O25: neither instruction sees the other's effect, so both orders apply the same two effects. -/
theorem stepsOfDifferentPipelinesCommute : Obligations.StepsOfDifferentPipelinesCommute := by
  intro i j s hi hj hki hkj hreads
  obtain ⟨e, he, hread⟩ := exec_isLocal hi s
  obtain ⟨f, hf, hread'⟩ := exec_isLocal hj s
  calc andThen (exec i s) (exec j)
      = andThen (e.apply .rx s) (exec j) := by rw [he s (.refl _ _ s)]
    _ = andThen (e.apply .rx s) fun t => f.apply .tx t := andThen_congr fun t ht => hf t (Effect.apply_sameView rfl hkj ht)
    _ = andThen (f.apply .tx s) fun t => e.apply .rx t :=
        Effect.apply_comm (p := .rx) fun v w ⟨hv, hw⟩ => hreads.elim (· (hread v hv)) (· (hread' w hw))
    _ = andThen (f.apply .tx s) (exec i) := andThen_congr fun t ht => (he t (Effect.apply_sameView rfl hki ht)).symm
    _ = andThen (exec j s) (exec i) := by rw [hf s (.refl _ _ s)]

end Sys2Proof.Machine
end

section
/-! PROOF. All that one instruction can do to its pipeline, stage by stage, and so who writes what (44_pipeline.md R360). -/

namespace Sys2Proof.Machine

open Sys2Proof.Config Host

/-! ### What each stage's action replaces -/

theorem alignTransfer_some {r : Xfer} {c c' : ClassifierState} (h : alignTransfer r c = some c') :
    ∃ phase pend more, c' = { c with phase := phase, pend := pend, labq := c.labq ++ more } := by
  unfold alignTransfer at h
  dsimp only at h
  split at h
  · split at h
    · cases h
    · split at h
      · cases h; exact ⟨c.phase, _, _, rfl⟩
      · cases h; exact ⟨_, _, _, rfl⟩
  · split at h
    · cases h; exact ⟨c.phase, c.pend, _, rfl⟩
    · cases h; exact ⟨_, _, [], by rw [List.append_nil]⟩

/-- The Filter's state `f'` is `f` with the writer moved and items admitted. -/
def WriterOnly (f f' : FilterState) : Prop := ∃ w more, f' = { f with w := w, fifo := f.fifo ++ more }

theorem writerOnly_enqueue (f : FilterState) (it : FifoItem) (w : WState) : WriterOnly f (f.enqueue it w) := ⟨w, [it], rfl⟩

theorem writerOnly_writeFind (clock : Word) (x : ClassifiedTransfer) (f : FilterState) : WriterOnly f (writeFind clock x f) := by
  unfold writeFind
  dsimp only
  split
  · exact writerOnly_enqueue f _ _
  · split
    · exact writerOnly_enqueue f _ _
    · split
      · exact writerOnly_enqueue f _ _
      · exact ⟨.find, [], by rw [List.append_nil]⟩

theorem writerOnly_writePkt (clock timeout : Word) (x : ClassifiedTransfer) (k : PktKind) (c : Nat) (f : FilterState) :
    WriterOnly f (writePkt clock timeout x k c f) := by
  unfold writePkt
  dsimp only
  split
  · exact writerOnly_writeFind clock x f
  · split
    · exact writerOnly_enqueue f _ _
    · split
      · exact writerOnly_enqueue f _ _
      · exact writerOnly_enqueue f _ _

/-- A writer row moves the writer and admits items. -/
def WriterRowOnly (row : Bank → ClassifiedTransfer → FilterState → Option FilterState) : Prop :=
  ∀ b x f f', row b x f = some f' → WriterOnly f f'

theorem findRow_writerOnly (clock : Word) : WriterRowOnly (findRow clock) := by
  intro b x f f' h
  obtain ⟨hen, hw⟩ := findRow_some h
  rw [findRow_selected hen hw] at h
  cases h
  exact writerOnly_writeFind clock x f

theorem osBodyRow_writerOnly : WriterRowOnly osBodyRow := by
  intro b x f f' h
  obtain ⟨hen, rem, k, hw⟩ := osBodyRow_some h
  rw [osBodyRow_selected hen hw] at h
  cases h
  exact writerOnly_enqueue f _ _

theorem pktRow_writerOnly (clock : Word) : WriterRowOnly (pktRow clock) := by
  intro b x f f' h
  obtain ⟨hen, k, c, hw⟩ := pktRow_some h
  rw [pktRow_selected hen hw] at h
  cases h
  exact writerOnly_writePkt clock b.timeout x k c f

theorem passRow_writerOnly : WriterRowOnly passRow := by
  intro b x f f' h
  rw [passRow_selected (passRow_some h)] at h
  cases h
  exact writerOnly_enqueue f _ _

/-- How many of its own steps the reader is away from popping the head of the FIFO or, where FILTER_ENABLE is 0, from R_NO_FILTER: a
bound that every other reader step lowers (41_filter.md R207 to R211). -/
def readerRank (fe : Bool) : RState → Nat
  | .noFilter => if fe then 5 else 0
  | .filter => 4
  | .tsi .hi _ _ => 3
  | .tsi .lo _ _ => 2
  | .read _ _ started => if started then 5 else 1

/-- A reader step keeps `flt.w`, and pops the head of the FIFO or leaves the FIFO and comes nearer to a pop. -/
structure ReaderStep (fe : Bool) (f f' : FilterState) : Prop where
  writer : f'.w = f.w
  progress : (∃ x, f.fifo = x :: f'.fifo) ∨ (f'.fifo = f.fifo ∧ readerRank fe f'.r < readerRank fe f.r)

section Reader

variable {fe : Bool} {f f' : FilterState}

theorem ReaderStep.of_pop {x : FifoItem} (hf : f.fifo = x :: f'.fifo) (hw : f'.w = f.w := by rfl) : ReaderStep fe f f' :=
  ⟨hw, .inl ⟨x, hf⟩⟩

theorem ReaderStep.of_rank {r r' : RState} (hr : f.r = r) (hr' : f'.r = r') (hrank : readerRank fe r' < readerRank fe r)
    (hw : f'.w = f.w := by rfl) (hfifo : f'.fifo = f.fifo := by rfl) : ReaderStep fe f f' :=
  ⟨hw, .inr ⟨hfifo, by rwa [hr, hr']⟩⟩

/-- A reader row takes such a step. -/
def ReaderRowSteps (row : Bank → FilterState → Option ReadResult) : Prop :=
  ∀ b f f' out, row b f = some (f', out) → ReaderStep b.filterEnable f f'

/-- The switch out of filtering is the reader's last step before it passes items. -/
theorem readDisable_steps {b : Bank} (hr : f.r ≠ .noFilter) (hdis : b.filterEnable = false) :
    ReaderStep b.filterEnable f (readDisable f).1 := by
  refine .of_rank rfl rfl ?_
  rw [hdis]
  cases hs : f.r with
  | noFilter => exact absurd hs hr
  | filter => exact Nat.succ_pos _
  | tsi half ts k => cases half <;> exact Nat.succ_pos _
  | read k en started => cases started <;> exact Nat.succ_pos _

theorem readPass_steps : ReaderRowSteps readPass := by
  intro b f f' out h
  unfold readPass at h
  split at h
  · next hr =>
    split at h
    · next hen => cases h; exact .of_rank hr rfl (by rw [hen]; exact Nat.lt_succ_self 4)
    · split at h
      · cases h
      · next hf => cases h; exact .of_pop hf
  all_goals cases h

theorem readSelect_steps : ReaderRowSteps readSelect := by
  intro b f f' out h
  unfold readSelect at h
  split at h
  · next hr =>
    split at h
    · next hdis => cases h; exact readDisable_steps (by simp [hr]) (by simpa using hdis)
    · split at h
      · cases h
      · next hf =>
        split at h
        · cases h; exact .of_pop hf
        · cases h
          refine .of_rank hr rfl ?_
          split
          · exact Nat.lt_succ_self 3
          · exact Nat.lt_add_of_pos_right (n := 1) (k := 3) (Nat.succ_pos 2)
  all_goals cases h

theorem readTsins_steps : ReaderRowSteps readTsins := by
  intro b f f' out h
  unfold readTsins at h
  split at h
  · next hr =>
    split at h
    · next hdis => cases h; exact readDisable_steps (by simp [hr]) (by simpa using hdis)
    · split at h
      · cases h; exact .of_rank hr rfl (Nat.lt_succ_self 2)
      · cases h; exact .of_rank hr rfl (Nat.lt_succ_self 1)
  all_goals cases h

theorem readDrain_steps : ReaderRowSteps readDrain := by
  intro b f f' out h
  unfold readDrain at h
  split at h
  · next hr =>
    split at h
    · next hdis => cases h; exact readDisable_steps (by simp [hr]) (by simpa using hdis)
    · split at h
      · cases h
      · next hf =>
        split at h
        · next hstart =>
          cases h
          obtain ⟨hstarted, _⟩ := Bool.and_eq_true_iff.mp hstart
          exact .of_rank hr rfl (by rw [hstarted]; exact Nat.lt_succ_self 4)
        · cases h; exact .of_pop hf
  all_goals cases h

end Reader

/-- The pipeline `q'` is `q` with the Recorder's state and the ring replaced. -/
def RecorderOnly (q q' : PipelineState) : Prop := ∃ r m, q' = { q with rcr := r, ring := m }

section Recorder

variable {par : Params} {p : Pipe} {i : TickInput} {q q' q'' : PipelineState}

theorem RecorderOnly.trans (h : RecorderOnly q q') (h' : RecorderOnly q' q'') : RecorderOnly q q'' := by
  obtain ⟨_, _, rfl⟩ := h
  obtain ⟨_, _, rfl⟩ := h'
  exact ⟨_, _, rfl⟩

theorem recorderOnly_refl : RecorderOnly q q := ⟨q.rcr, q.ring, rfl⟩

theorem recorderOnly_rcr (r : RecorderState) : RecorderOnly q { q with rcr := r } := ⟨r, q.ring, rfl⟩

theorem recorderOnly_writeRecord {y : TrigOut} {tb : Bool} : RecorderOnly q (writeRecord par p y tb q) := ⟨_, _, rfl⟩

theorem recorderOnly_writeItem {y : Option TrigOut} : RecorderOnly q (writeItem par p y q) := by
  cases y with
  | none => exact recorderOnly_refl
  | some y => exact recorderOnly_writeRecord

theorem recorderOnly_extTrigger : RecorderOnly q (extTrigger par p i q) :=
  (recorderOnly_rcr _).trans (recorderOnly_writeItem.trans ((recorderOnly_rcr _).trans (recorderOnly_rcr _)))

theorem recorderOnly_ownTrigger {y : TrigOut} : RecorderOnly q (ownTrigger par p y q) :=
  (recorderOnly_rcr _).trans (recorderOnly_writeRecord.trans ((recorderOnly_rcr _).trans (recorderOnly_rcr _)))

/-- The action of a Recorder state replaces the Recorder's state and the ring. -/
def BodyRecorderOnly (body : TickInput → PipelineState → PipelineState) : Prop := ∀ i q, RecorderOnly q (body i q)

theorem idleBody_recorderOnly : BodyRecorderOnly (idleBody par p) := by
  intro i q
  cases hrise : i.rise with
  | true => rw [idleBody_rising hrise]; exact (recorderOnly_rcr _).trans recorderOnly_writeItem
  | false => rw [idleBody_quiet hrise]; exact recorderOnly_refl

theorem preBody_recorderOnly : BodyRecorderOnly (preBody par p) := by
  intro i q
  unfold preBody
  split
  · exact recorderOnly_extTrigger
  · exact recorderOnly_writeItem.trans (recorderOnly_rcr _)

theorem waitBody_recorderOnly : BodyRecorderOnly (waitBody par p) := by
  intro i q
  cases hown : i.y.any (·.trig) with
  | true =>
    obtain ⟨y, hy, htrig⟩ := (Option.any_eq_true _ _).mp hown
    rw [waitBody_own hy htrig]
    exact recorderOnly_ownTrigger
  | false =>
    cases hrise : i.rise with
    | true => rw [waitBody_rising hown hrise]; exact recorderOnly_extTrigger
    | false => rw [waitBody_quiet hown hrise]; exact recorderOnly_writeItem

theorem postBody_recorderOnly : BodyRecorderOnly (postBody par p) :=
  fun _ _ => recorderOnly_writeItem.trans ((recorderOnly_rcr _).trans (recorderOnly_rcr _))

theorem doneBody_recorderOnly : BodyRecorderOnly doneBody := fun _ _ => recorderOnly_refl

theorem forcedBody_recorderOnly : BodyRecorderOnly (forcedBody par p) := by
  intro i q
  cases hf : i.f with
  | true => rw [forcedBody_high hf]; exact recorderOnly_writeItem
  | false => rw [forcedBody_low hf]; exact recorderOnly_rcr _

end Recorder

/-! ### All that an instruction can do to its pipeline -/

/-- `Moves par p i q q'`: the instruction `i` changes its pipeline `p` from `q` to `q'`. Each constructor is a kind of step and names what it
may replace, what it puts in which queue and what it takes from one. -/
inductive Moves (par : Params) (p : Pipe) (i : Instr) (q : PipelineState) : PipelineState → Prop
  | configWrite (hk : stepKind i = .configWrite) (b : Bank) (tbl : List PatternEntry) : Moves par p i q { q with bank := b, pattern := tbl }
  | start (v : Word) (hi : i = .start p v) (hv : v.getLsbD 0 = true) : Moves par p i q (startPipeline par p q)
  | stop (hk : stepKind i = .stop) (st : RecSt) : Moves par p i q { q with rcr := { q.rcr with st := st } }
  | symbol (hk : stepKind i = .symbol) (half : Option SymByte) (more : List Xfer) :
      Moves par p i q { q with srcHalf := half, qRaw := q.qRaw ++ more }
  | aligner (hk : stepKind i = .aligner) {r : Xfer} {rest : List Xfer} (hq : q.qRaw = r :: rest) (phase : Bool) (pend : Option SymByte)
      (more : List Xfer) :
      Moves par p i q { q with qRaw := rest, cls := { q.cls with phase := phase, pend := pend, labq := q.cls.labq ++ more } }
  | labeller (hk : stepKind i = .labeller) {x : Xfer} {rest : List Xfer} (hq : q.cls.labq = x :: rest) (rem : Fin 8) (cur : OsType)
      (lfsr : BitVec 16) (y : ClassifiedTransfer) :
      Moves par p i q { q with cls := { q.cls with labq := rest, rem := rem, cur := cur, lfsr := lfsr }, qCls := q.qCls ++ [y] }
  | writer (hk : stepKind i = .writer) {x : ClassifiedTransfer} {rest : List ClassifiedTransfer} (hq : q.qCls = x :: rest) (w : WState)
      (more : List FifoItem) : Moves par p i q { q with qCls := rest, flt := { q.flt with w := w, fifo := q.flt.fifo ++ more } }
  | reader (hk : stepKind i = .reader) {f : FilterState} (hf : ReaderStep q.bank.filterEnable q.flt f) (out : List FiltOut) :
      Moves par p i q { q with flt := f, qFlt := q.qFlt ++ out }
  | trigger (hk : stepKind i = .trigger) {y : FiltOut} {rest : List FiltOut} (hq : q.qFlt = y :: rest) (t : TriggerState) (z : TrigOut) :
      Moves par p i q { q with qFlt := rest, trg := t, qTrg := q.qTrg ++ [z] }
  | recorder (hk : stepKind i = .recorder) {rest : List TrigOut} (hq : rest = q.qTrg ∨ ∃ y, q.qTrg = y :: rest) (r : RecorderState)
      (m : Memory) : Moves par p i q { q with qTrg := rest, rcr := r, ring := m }

/-- Where the outcome at `s` is a next state, pipeline `p` is as it was or has taken a step of the instruction `i`. -/
def NextMoves (i : Instr) (p : Pipe) (s : State) (o : Outcome State Fault Refusal) : Prop :=
  ∀ t, o = .next t → t.pipe p = s.pipe p ∨ Moves s.par p i (s.pipe p) (t.pipe p)

section Shapes

variable {i : Instr} {p : Pipe} {s : State}

theorem nextMoves_same {t : State} (h : t.pipe p = s.pipe p) : NextMoves i p s (.next t) := by
  rintro _ ⟨⟩
  exact .inl h

theorem nextMoves_setPipe {q : PipelineState} (h : Moves s.par p i (s.pipe p) q) : NextMoves i p s (.next (s.setPipe p q)) := by
  rintro _ ⟨⟩
  rw [State.setPipe_pipe]
  exact .inr h

theorem hostRead_moves (v : Word) : NextMoves i p s (hostRead v s) := nextMoves_same (State.withHostRd_pipe s v p)

theorem bankWrite_moves (hk : stepKind i = .configWrite) (f : Bank → Bank) : NextMoves i p s (bankWrite p f s) :=
  nextMoves_setPipe (.configWrite hk _ (s.pipe p).pattern)

theorem execWrTrigSize_moves (hk : stepKind i = .configWrite) (v : Word) : NextMoves i p s (execWrTrigSize p v s) := by
  unfold execWrTrigSize
  split
  · rintro _ ⟨⟩
  · exact bankWrite_moves hk _

theorem conditionalWrite_moves {c : Prop} [Decidable c] {f : PipelineState → PipelineState}
    (h : c → Moves s.par p i (s.pipe p) (f (s.pipe p))) : NextMoves i p s (if c then hostWrite p f s else ignoredWrite s) := by
  split
  · next hc => exact nextMoves_setPipe (h hc)
  · exact nextMoves_same rfl

theorem deliver_moves (hk : stepKind i = .symbol) (b : SymByte) : NextMoves i p s (deliver p b s) := by
  cases h : (s.pipe p).srcHalf with
  | none =>
    have hheld : Moves s.par p i (s.pipe p) { s.pipe p with srcHalf := some b, qRaw := (s.pipe p).qRaw ++ [] } := .symbol hk _ _
    rw [List.append_nil] at hheld
    rw [deliver_first b h]
    exact nextMoves_setPipe hheld
  | some a =>
    rw [deliver_second b h]
    exact nextMoves_setPipe (.symbol hk _ _)

theorem agentStep_moves {act : PipelineState → Option PipelineState}
    (hact : ∀ q, act (s.pipe p) = some q → Moves s.par p i (s.pipe p) q) : NextMoves i p s (agentStep p act s) := by
  intro t ht
  rcases agentStep_next ht with ⟨_, rfl⟩ | ⟨q, hq, rfl⟩
  · exact .inl rfl
  · exact nextMoves_setPipe (hact q hq) _ rfl

theorem writerStep_moves (hk : stepKind i = .writer) {row : Bank → ClassifiedTransfer → FilterState → Option FilterState}
    (hrow : WriterRowOnly row) : NextMoves i p s (agentStep p (writerAction s.par row) s) := agentStep_moves fun _ h => by
  obtain ⟨x, rest, f, hq, _, hf, rfl⟩ := writerAction_some h
  obtain ⟨w, more, rfl⟩ := hrow _ _ _ _ hf
  exact .writer hk hq w more

theorem readerStep_moves (hk : stepKind i = .reader) {row : Bank → FilterState → Option ReadResult} (hrow : ReaderRowSteps row) :
    NextMoves i p s (agentStep p (readerAction row) s) := agentStep_moves fun _ h => by
  obtain ⟨f, out, hf, rfl⟩ := readerAction_some h
  exact .reader hk (hrow _ _ _ _ hf) out

/-- A tick takes at most the head of `q_trg`. -/
theorem tickItem_some {t : Tick} {q q1 : PipelineState} {y : Option TrigOut} (h : tickItem t q = some (y, q1)) :
    ∃ rest, (rest = q.qTrg ∨ ∃ z, q.qTrg = z :: rest) ∧ q1 = { q with qTrg := rest } := by
  unfold tickItem at h
  split at h
  · cases h; exact ⟨q.qTrg, .inl rfl, rfl⟩
  · split at h
    · cases h
    · next z rest hq => cases h; exact ⟨rest, .inr ⟨z, hq⟩, rfl⟩

theorem recorderStep_moves (hk : stepKind i = .recorder) {sel : RecSt → Bool} {body : TickInput → PipelineState → PipelineState}
    (hbody : BodyRecorderOnly body) (t : Tick) : NextMoves i p s (recorderStep sel body p t s) := agentStep_moves fun _ h => by
  obtain ⟨y, q1, _, hitem, _, rfl⟩ := tickAction_some h
  obtain ⟨rest, hq, rfl⟩ := tickItem_some hitem
  obtain ⟨r, m, hr⟩ := hbody (tickSees y (s.pipe p).rcr) { s.pipe p with qTrg := rest }
  rw [hr]
  exact .recorder hk hq _ m

end Shapes

theorem exec_moves {i : Instr} {p : Pipe} (hp : instrPipe i = some p) (s : State) : NextMoves i p s (exec i s) := by
  cases i with
  | wrFilterEnable _ _ | wrFilterConfig _ _ | wrTlpDllpTimeout _ _ | wrTrigArmed _ _ | wrRecMode _ _ | wrRecOffset _ _
  | wrRecSize _ _ =>
    cases hp
    dsimp only [exec, execWrFilterEnable, execWrFilterConfig, execWrTlpDllpTimeout, execWrTrigArmed, execWrRecMode, execWrRecOffset,
      execWrRecSize]
    exact bankWrite_moves rfl _
  | wrTrigSize _ v => cases hp; exact execWrTrigSize_moves rfl v
  | wrPattern _ _ _ => cases hp; exact conditionalWrite_moves fun _ => .configWrite rfl (s.pipe p).bank _
  | rdFilterEnable _ | rdFilterConfig _ | rdTlpDllpTimeout _ | rdTrigArmed _ | rdTrigSize _ | rdRecMode _ | rdRecOffset _
  | rdRecSize _ | rdPattern _ _ | rdStatusTriggered _ | rdStatusFinished _ | rdStatusTrigAddr _ | rdStatusState _ | rdGeomBase _
  | rdGeomLength _ | rdGeomChunk _ | rdGeomStep _ | rdRecStart _ | rdRecStop _ => cases hp; exact hostRead_moves _
  | start _ v => cases hp; exact conditionalWrite_moves fun hv => .start v rfl hv
  | stop _ _ => cases hp; exact conditionalWrite_moves fun _ => .stop rfl _
  | wrStatusTriggered _ _ | wrStatusFinished _ _ | wrStatusTrigAddr _ _ | wrStatusState _ _ | wrGeomBase _ _ | wrGeomLength _ _
  | wrGeomChunk _ _ | wrGeomStep _ _ => exact nextMoves_same rfl
  | com _ | skp _ | fts _ | idl _ | stp _ | sdp _ | endSym _ | d215 _ | d102 _ | d52 _ | kOther _ _ | dOther _ _ =>
    cases hp; exact deliver_moves rfl _
  | align _ =>
    cases hp
    refine agentStep_moves fun _ h => ?_
    obtain ⟨r, rest, c, hq, hc, rfl⟩ := alignAction_some h
    obtain ⟨phase, pend, more, rfl⟩ := alignTransfer_some hc
    exact .aligner rfl hq phase pend more
  | label _ =>
    cases hp
    refine agentStep_moves fun _ h => ?_
    obtain ⟨x, rest, hq, _, rfl⟩ := labelAction_some h
    exact .labeller rfl hq _ _ _ _
  | filtWriteFind _ => cases hp; exact writerStep_moves rfl (findRow_writerOnly s.clock)
  | filtWriteOsbody _ => cases hp; exact writerStep_moves rfl osBodyRow_writerOnly
  | filtWritePkt _ => cases hp; exact writerStep_moves rfl (pktRow_writerOnly s.clock)
  | filtWritePass _ => cases hp; exact writerStep_moves rfl passRow_writerOnly
  | filtReadPass _ => cases hp; exact readerStep_moves rfl readPass_steps
  | filtReadSelect _ => cases hp; exact readerStep_moves rfl readSelect_steps
  | filtReadTsins _ => cases hp; exact readerStep_moves rfl readTsins_steps
  | filtReadDrain _ => cases hp; exact readerStep_moves rfl readDrain_steps
  | trig _ =>
    cases hp
    refine agentStep_moves fun _ h => ?_
    obtain ⟨y, rest, hq, rfl⟩ := trigAction_some h
    exact .trigger rfl hq _ _
  | recTickIdle _ t => cases hp; exact recorderStep_moves rfl idleBody_recorderOnly t
  | recTickPre _ t => cases hp; exact recorderStep_moves rfl preBody_recorderOnly t
  | recTickWait _ t => cases hp; exact recorderStep_moves rfl waitBody_recorderOnly t
  | recTickPost _ t => cases hp; exact recorderStep_moves rfl postBody_recorderOnly t
  | recTickDoneAbort _ t => cases hp; exact recorderStep_moves rfl doneBody_recorderOnly t
  | recTickForced _ t => cases hp; exact recorderStep_moves rfl forcedBody_recorderOnly t
  | clock => cases hp

theorem eq_clock_of_instrPipe_eq_none {i : Instr} (h : instrPipe i = none) : i = .clock := by
  cases i with
  | clock => rfl
  | _ => cases h

theorem eq_peer_of_ne {p r : Pipe} (h : r ≠ p) : p = r.peer := by
  cases p with
  | rx => cases r with
    | rx => exact absurd rfl h
    | tx => rfl
  | tx => cases r with
    | rx => rfl
    | tx => exact absurd rfl h

/-- Either pipeline after an instruction: as it was, or after a step of the instruction, which is then one of that pipeline. -/
theorem exec_moves_pipe {i : Instr} {s t : State} (ht : exec i s = .next t) (p : Pipe) :
    t.pipe p = s.pipe p ∨ Moves s.par p i (s.pipe p) (t.pipe p) := by
  cases hp : instrPipe i with
  | none =>
    obtain rfl := eq_clock_of_instrPipe_eq_none hp
    cases ht
    exact .inl (State.withClock_pipe s _ p)
  | some r =>
    by_cases hr : r = p
    · subst hr
      exact exec_moves hp s t ht
    · obtain rfl := eq_peer_of_ne hr
      exact .inl (peerPipelineIsUntouched i s t r ht hp)

/-! ### Who writes what (R360) -/

/-- What a step of kind `k` does not write of a pipeline is in `q'` as it is in `q`. -/
def KeepsUnwritten (k : StepKind) (q q' : PipelineState) : Prop :=
  (k ≠ .configWrite → q'.bank = q.bank ∧ q'.pattern = q.pattern) ∧
  (k ≠ .symbol → q'.srcHalf = q.srcHalf) ∧
  (k ∉ [.symbol, .aligner] → q'.qRaw = q.qRaw) ∧
  (k ∉ [.aligner, .start] → q'.cls.phase = q.cls.phase ∧ q'.cls.pend = q.cls.pend) ∧
  (k ∉ [.aligner, .labeller, .start] → q'.cls.labq = q.cls.labq) ∧
  (k ∉ [.labeller, .start] → q'.cls.rem = q.cls.rem ∧ q'.cls.cur = q.cls.cur ∧ q'.cls.lfsr = q.cls.lfsr) ∧
  (k ∉ [.labeller, .writer, .start] → q'.qCls = q.qCls) ∧
  (k ∉ [.writer, .start] → q'.flt.w = q.flt.w) ∧
  (k ∉ [.writer, .reader, .start] → q'.flt.fifo = q.flt.fifo) ∧
  (k ∉ [.reader, .start] → q'.flt.r = q.flt.r ∧ q'.flt.lastTs = q.flt.lastTs ∧ q'.flt.tsValid = q.flt.tsValid) ∧
  (k ∉ [.reader, .trigger, .start] → q'.qFlt = q.qFlt) ∧
  (k ∉ [.trigger, .start] → q'.trg = q.trg) ∧
  (k ∉ [.trigger, .recorder, .start] → q'.qTrg = q.qTrg) ∧
  (k ∉ [.recorder, .start, .stop] → q'.rcr.st = q.rcr.st) ∧
  (k ∉ [.recorder, .start] →
    q'.rcr.cursor = q.rcr.cursor ∧ q'.rcr.first = q.rcr.first ∧ q'.rcr.trigAddr = q.rcr.trigAddr ∧ q'.rcr.preCnt = q.rcr.preCnt ∧
    q'.rcr.postCnt = q.rcr.postCnt) ∧
  (k ≠ .recorder → q'.rcr.s1 = q.rcr.s1 ∧ q'.rcr.s2 = q.rcr.s2 ∧ q'.rcr.fprev = q.rcr.fprev ∧ q'.ring = q.ring)

theorem keepsUnwritten_refl (k : StepKind) (q : PipelineState) : KeepsUnwritten k q q := by simp [KeepsUnwritten]

theorem Moves.keepsUnwritten {par : Params} {p : Pipe} {i : Instr} {q q' : PipelineState} (h : Moves par p i q q') :
    KeepsUnwritten (stepKind i) q q' := by
  cases h with
  | start v hi _ =>
    rw [hi]
    simp [KeepsUnwritten, stepKind, startPipeline_kept]
  | reader hk hf _ => simp [KeepsUnwritten, hk, hf.writer]
  | configWrite hk | stop hk | symbol hk | aligner hk | labeller hk | writer hk | trigger hk | recorder hk => simp [KeepsUnwritten, hk]

/-- The machine's own fields: no instruction changes the parameters or the schedule, CLOCK alone the clock, host reads alone `hostRd`. -/
theorem exec_keepsOwnFields {i : Instr} {s t : State} (ht : exec i s = .next t) :
    t.par = s.par ∧ t.sched = s.sched ∧ (stepKind i ≠ .clock → t.clock = s.clock) ∧ (stepKind i ≠ .hostRead → t.hostRd = s.hostRd) := by
  cases hp : instrPipe i with
  | none =>
    obtain rfl := eq_clock_of_instrPipe_eq_none hp
    cases ht
    exact ⟨rfl, rfl, fun h => absurd rfl h, fun _ => rfl⟩
  | some p =>
    obtain ⟨e, he, hread⟩ := exec_isLocal hp s
    rw [he s (.refl _ p s)] at ht
    cases e with
    | move q =>
      cases ht
      exact ⟨State.setPipe_par s p q, State.setPipe_sched s p q, fun _ => State.setPipe_clock s p q, fun _ => State.setPipe_hostRd s p q⟩
    | read v =>
      cases ht
      exact ⟨rfl, rfl, fun _ => rfl, fun h => absurd (hread v rfl) h⟩
    | refuse => cases ht

/-- Settles O22: the machine's own fields apart, an instruction leaves a pipeline as it is or takes one of the steps of `Moves`. -/
theorem eachKindOfStateHasItsWriters : Obligations.EachKindOfStateHasItsWriters := by
  intro i s t p ht
  obtain ⟨hpar, hsched, hclock, hrd⟩ := exec_keepsOwnFields ht
  refine ⟨hpar, hsched, hclock, hrd, ?_⟩
  rcases exec_moves_pipe ht p with hsame | hmoves
  · rw [hsame]
    exact keepsUnwritten_refl _ _
  · exact hmoves.keepsUnwritten

end Sys2Proof.Machine
end

section
/-! PROOF. Fair runs take the head of every queue (44_pipeline.md R365): an enabled agent that steps takes its input, or comes nearer to it,
and while a head waits its agent stays enabled. -/

namespace Sys2Proof.Machine

open Sys2Proof.Config Host

/-! ### Queues under one step -/

/-- The step from `q` to `q'` takes the head off a queue. -/
def HeadTaken {α : Type} (queue : PipelineState → List α) (q q' : PipelineState) : Prop := ∃ x, queue q = x :: queue q'

/-- The step from `q` to `q'` takes nothing off a queue. -/
def Grows {α : Type} (queue : PipelineState → List α) (q q' : PipelineState) : Prop := ∃ more, queue q' = queue q ++ more

theorem grows_of_eq {α : Type} {queue : PipelineState → List α} {q q' : PipelineState} (h : queue q' = queue q) : Grows queue q q' :=
  ⟨[], by rw [h, List.append_nil]⟩

/-- A START of pipeline `p` that performs the command (45_host.md R400). -/
def IsStart (p : Pipe) (i : Instr) : Prop := ∃ v, i = .start p v ∧ v.getLsbD 0 = true

section Moves

variable {par : Params} {p : Pipe} {i : Instr} {q q' : PipelineState}

theorem Moves.qRaw_step (h : Moves par p i q q') : HeadTaken (·.qRaw) q q' ∨ Grows (·.qRaw) q q' := by
  cases h with
  | aligner _ hq _ _ _ => exact .inl ⟨_, hq⟩
  | symbol _ _ more => exact .inr ⟨more, rfl⟩
  | _ => exact .inr (grows_of_eq rfl)

/-- The aligned queue grows with the open set as it was, until the labeller steps. -/
def LabqWaits (q q' : PipelineState) : Prop := Grows (·.cls.labq) q q' ∧ q'.cls.rem = q.cls.rem

theorem Moves.labq_step (h : Moves par p i q q') : IsStart p i ∨ HeadTaken (·.cls.labq) q q' ∨ LabqWaits q q' := by
  cases h with
  | start v hi hv => exact .inl ⟨v, hi, hv⟩
  | labeller _ hq _ _ _ _ => exact .inr (.inl ⟨_, hq⟩)
  | aligner _ _ _ _ more => exact .inr (.inr ⟨⟨more, rfl⟩, rfl⟩)
  | _ => exact .inr (.inr ⟨grows_of_eq rfl, rfl⟩)

/-- `q_cls` grows and the FIFO does not, until the writer steps. -/
def QClsWaits (q q' : PipelineState) : Prop := Grows (·.qCls) q q' ∧ q'.flt.fifo.length ≤ q.flt.fifo.length

theorem ReaderStep.fifo_length_le {fe : Bool} {f f' : FilterState} (h : ReaderStep fe f f') : f'.fifo.length ≤ f.fifo.length := by
  rcases h.progress with ⟨x, hpop⟩ | ⟨hkept, _⟩
  · rw [hpop]
    exact Nat.le_succ _
  · rw [hkept]

theorem Moves.qCls_step (h : Moves par p i q q') : IsStart p i ∨ HeadTaken (·.qCls) q q' ∨ QClsWaits q q' := by
  cases h with
  | start v hi hv => exact .inl ⟨v, hi, hv⟩
  | writer _ hq _ _ => exact .inr (.inl ⟨_, hq⟩)
  | labeller _ _ _ _ _ y => exact .inr (.inr ⟨⟨[y], rfl⟩, le_rfl⟩)
  | reader _ hf _ => exact .inr (.inr ⟨grows_of_eq rfl, hf.fifo_length_le⟩)
  | _ => exact .inr (.inr ⟨grows_of_eq rfl, le_rfl⟩)

/-- The FIFO grows and the reader comes no farther from its next pop, until it pops the head. -/
def FifoWaits (q q' : PipelineState) : Prop :=
  Grows (·.flt.fifo) q q' ∧ readerRank q.bank.filterEnable q'.flt.r ≤ readerRank q.bank.filterEnable q.flt.r

theorem Moves.fifo_step (h : Moves par p i q q') : IsStart p i ∨ HeadTaken (·.flt.fifo) q q' ∨ FifoWaits q q' := by
  cases h with
  | start v hi hv => exact .inl ⟨v, hi, hv⟩
  | writer _ _ _ more => exact .inr (.inr ⟨⟨more, rfl⟩, le_rfl⟩)
  | reader _ hf _ =>
    rcases hf.progress with hpop | ⟨hkept, hrank⟩
    · exact .inr (.inl hpop)
    · exact .inr (.inr ⟨grows_of_eq hkept, hrank.le⟩)
  | _ => exact .inr (.inr ⟨grows_of_eq rfl, le_rfl⟩)

theorem Moves.qFlt_step (h : Moves par p i q q') : IsStart p i ∨ HeadTaken (·.qFlt) q q' ∨ Grows (·.qFlt) q q' := by
  cases h with
  | start v hi hv => exact .inl ⟨v, hi, hv⟩
  | trigger _ hq _ _ => exact .inr (.inl ⟨_, hq⟩)
  | reader _ _ out => exact .inr (.inr ⟨out, rfl⟩)
  | _ => exact .inr (.inr (grows_of_eq rfl))

theorem Moves.qTrg_step (h : Moves par p i q q') : IsStart p i ∨ HeadTaken (·.qTrg) q q' ∨ Grows (·.qTrg) q q' := by
  cases h with
  | start v hi hv => exact .inl ⟨v, hi, hv⟩
  | trigger _ _ _ z => exact .inr (.inr ⟨[z], rfl⟩)
  | recorder _ hq _ _ =>
    rcases hq with rfl | hpop
    · exact .inr (.inr (grows_of_eq rfl))
    · exact .inr (.inl hpop)
  | _ => exact .inr (.inr (grows_of_eq rfl))

end Moves

/-! ### An enabled agent that steps -/

section Enabled

variable {p : Pipe} {s t : State}

/-- A good aligner takes every transfer: in phase 1 it holds a byte (10_state.md R34). -/
theorem alignTransfer_of_good {c : ClassifierState} (h : c.Good) (r : Xfer) : ∃ c', alignTransfer r c = some c' := by
  obtain ⟨hpend, _⟩ := h
  cases hphase : c.phase with
  | false =>
    by_cases hcom : isCom r.lane0 = true ∨ isCom r.lane1 = false
    · exact ⟨_, alignTransfer_pass hphase hcom⟩
    · rw [not_or, Bool.not_eq_true, Bool.not_eq_false] at hcom
      exact ⟨_, alignTransfer_enter hphase hcom.1 hcom.2⟩
  | true =>
    obtain ⟨b, hb⟩ := Option.isSome_iff_exists.mp (hpend.trans hphase)
    by_cases hcom : isCom r.lane1 = true ∨ isCom r.lane0 = false
    · exact ⟨_, alignTransfer_shift hphase hb hcom⟩
    · rw [not_or, Bool.not_eq_true, Bool.not_eq_false] at hcom
      exact ⟨_, alignTransfer_return hphase hb hcom.1 hcom.2⟩

theorem aligner_takes (hg : (s.pipe p).cls.Good) (he : agentEnabled p .aligner s = true)
    (ht : exec (selectRow p .aligner s) s = .next t) : HeadTaken (·.qRaw) (s.pipe p) (t.pipe p) := by
  obtain ⟨r, rest, hq⟩ := List.exists_cons_of_ne_nil (l := (s.pipe p).qRaw) (by simpa [agentEnabled] using he)
  obtain ⟨c, hc⟩ := alignTransfer_of_good hg r
  rw [selectRow, exec_align_cons hq hc] at ht
  cases ht
  exact ⟨r, by rw [State.setPipe_pipe]; exact hq⟩

theorem labeller_enabled_iff :
    agentEnabled p .labeller s = true ↔ ∃ x rest, (s.pipe p).cls.labq = x :: rest ∧ labelEnabled (s.pipe p).cls x = true := by
  cases h : (s.pipe p).cls.labq <;> simp [agentEnabled, h]

theorem labeller_takes (he : agentEnabled p .labeller s = true) (ht : exec (selectRow p .labeller s) s = .next t) :
    HeadTaken (·.cls.labq) (s.pipe p) (t.pipe p) := by
  obtain ⟨x, rest, hq, hx⟩ := labeller_enabled_iff.mp he
  rw [selectRow, exec_label_enabled hq hx] at ht
  cases ht
  exact ⟨x, by rw [State.setPipe_pipe]; exact hq⟩

theorem writer_enabled_iff :
    agentEnabled p .writer s = true ↔ (s.pipe p).qCls ≠ [] ∧ (s.pipe p).flt.fifo.length < s.par.fifoDepth := by
  simp [agentEnabled]

/-- The row that FILTER_ENABLE and `flt.w` select takes the head where there is room. -/
theorem exec_writerRow {x : ClassifiedTransfer} {rest : List ClassifiedTransfer} (hq : (s.pipe p).qCls = x :: rest)
    (hroom : (s.pipe p).flt.fifo.length < s.par.fifoDepth) :
    ∃ f, exec (writerRow p (s.pipe p)) s = .next (s.setPipe p { s.pipe p with qCls := rest, flt := f }) := by
  cases hen : (s.pipe p).bank.filterEnable with
  | false =>
    rw [writerRow_of_disabled hen]
    exact ⟨_, writerStep_of_row hq hroom (passRow_selected hen)⟩
  | true =>
    have hfind (hw : (s.pipe p).flt.w = .noFilter ∨ (s.pipe p).flt.w = .find) :
        ∃ f, exec (writerRow p (s.pipe p)) s = .next (s.setPipe p { s.pipe p with qCls := rest, flt := f }) := by
      rw [writerRow_of_find hw, if_pos hen]
      exact ⟨_, exec_filtWriteFind hq hroom hen hw⟩
    cases hw : (s.pipe p).flt.w with
    | noFilter => exact hfind (.inl hw)
    | find => exact hfind (.inr hw)
    | os rem k =>
      rw [writerRow_of_os hw, if_pos hen]
      exact ⟨_, writerStep_of_row hq hroom (osBodyRow_selected hen hw)⟩
    | pkt k c =>
      rw [writerRow_of_pkt hw, if_pos hen]
      exact ⟨_, writerStep_of_row hq hroom (pktRow_selected hen hw)⟩

theorem writer_takes (he : agentEnabled p .writer s = true) (ht : exec (selectRow p .writer s) s = .next t) :
    HeadTaken (·.qCls) (s.pipe p) (t.pipe p) := by
  obtain ⟨hne, hroom⟩ := writer_enabled_iff.mp he
  obtain ⟨x, rest, hq⟩ := List.exists_cons_of_ne_nil hne
  obtain ⟨f, hf⟩ := exec_writerRow hq hroom
  rw [selectRow, hf] at ht
  cases ht
  exact ⟨x, by rw [State.setPipe_pipe]; exact hq⟩

/-- The reader is enabled while the FIFO holds an item, whatever its state (41_filter.md R207). -/
theorem reader_enabled_of_fifo (h : (s.pipe p).flt.fifo ≠ []) : agentEnabled p .reader s = true := by
  simp only [agentEnabled, readerEnabled]
  split <;> simp [h]

/-- The row that `flt.r` selects has an action where the reader is enabled. -/
theorem readerRow_some (he : readerEnabled (s.pipe p) = true) :
    ∃ row res, ReaderRowSteps row ∧ row (s.pipe p).bank (s.pipe p).flt = some res ∧
      exec (readerRow p (s.pipe p)) s = agentStep p (readerAction row) s := by
  have hrow {row : Bank → FilterState → Option ReadResult} (hsteps : ReaderRowSteps row)
      (hexec : exec (readerRow p (s.pipe p)) s = agentStep p (readerAction row) s)
      (hsome : (row (s.pipe p).bank (s.pipe p).flt).isSome) :
      ∃ row res, ReaderRowSteps row ∧ row (s.pipe p).bank (s.pipe p).flt = some res ∧
        exec (readerRow p (s.pipe p)) s = agentStep p (readerAction row) s := by
    obtain ⟨res, hres⟩ := Option.isSome_iff_exists.mp hsome
    exact ⟨row, res, hsteps, hres, hexec⟩
  have hhead (hne : (s.pipe p).flt.fifo ≠ []) : ∃ it rest, (s.pipe p).flt.fifo = it :: rest := List.exists_cons_of_ne_nil hne
  cases hr : (s.pipe p).flt.r with
  | noFilter =>
    refine hrow readPass_steps (by rw [readerRow, hr]; rfl) ?_
    cases hen : (s.pipe p).bank.filterEnable with
    | true => rw [readPass_switch hen hr]; rfl
    | false =>
      obtain ⟨it, rest, hf⟩ := hhead (by simpa [readerEnabled, hr, hen] using he)
      rw [readPass_head hen hr hf]; rfl
  | filter =>
    refine hrow readSelect_steps (by rw [readerRow, hr]; rfl) ?_
    cases hen : (s.pipe p).bank.filterEnable with
    | false => rw [readSelect_switch hen hr]; rfl
    | true =>
      obtain ⟨it, rest, hf⟩ := hhead (by simpa [readerEnabled, hr, hen] using he)
      simp only [readSelect, hr, hen, hf, Bool.not_true, Bool.false_eq_true, if_false]
      split <;> rfl
  | tsi half ts k =>
    refine hrow readTsins_steps (by rw [readerRow, hr]; rfl) ?_
    cases hen : (s.pipe p).bank.filterEnable with
    | false => rw [readTsins_switch hen hr]; rfl
    | true =>
      cases half with
      | hi => rw [readTsins_high hen hr]; rfl
      | lo => rw [readTsins_low hen hr]; rfl
  | read k en started =>
    refine hrow readDrain_steps (by rw [readerRow, hr]; rfl) ?_
    cases hen : (s.pipe p).bank.filterEnable with
    | false => rw [readDrain_switch hen hr]; rfl
    | true =>
      obtain ⟨it, rest, hf⟩ := hhead (by simpa [readerEnabled, hr, hen] using he)
      simp only [readDrain, hr, hen, hf, Bool.not_true, Bool.false_eq_true, if_false]
      split <;> rfl

theorem reader_steps (he : agentEnabled p .reader s = true) (ht : exec (selectRow p .reader s) s = .next t) :
    ReaderStep (s.pipe p).bank.filterEnable (s.pipe p).flt (t.pipe p).flt := by
  obtain ⟨row, ⟨f, out⟩, hrow, hres, hexec⟩ := readerRow_some he
  rw [selectRow, hexec, readerStep_of_row hres] at ht
  cases ht
  rw [State.setPipe_pipe]
  exact hrow _ _ _ _ hres

theorem trigger_takes (he : agentEnabled p .trigger s = true) (ht : exec (selectRow p .trigger s) s = .next t) :
    HeadTaken (·.qFlt) (s.pipe p) (t.pipe p) := by
  obtain ⟨y, rest, hq⟩ := List.exists_cons_of_ne_nil (l := (s.pipe p).qFlt) (by simpa [agentEnabled] using he)
  rw [selectRow, trig_takes hq rfl] at ht
  cases ht
  exact ⟨y, by rw [State.setPipe_pipe]; exact hq⟩

/-- The row that `rec.st` selects is a tick whose action replaces the Recorder's state and the ring alone. -/
theorem exec_recorderRow (t : Tick) :
    ∃ sel body, sel (s.pipe p).rcr.st = true ∧ BodyRecorderOnly body ∧
      exec (recorderRow p t (s.pipe p)) s = recorderStep sel body p t s := by
  unfold recorderRow
  cases hst : (s.pipe p).rcr.st with
  | idle => exact ⟨_, _, rfl, idleBody_recorderOnly, rfl⟩
  | fillPreTrig => exact ⟨_, _, rfl, preBody_recorderOnly, rfl⟩
  | waitTrigger => exact ⟨_, _, rfl, waitBody_recorderOnly, rfl⟩
  | fillPostTrig => exact ⟨_, _, rfl, postBody_recorderOnly, rfl⟩
  | done => exact ⟨_, _, rfl, doneBody_recorderOnly, rfl⟩
  | abort => exact ⟨_, _, rfl, doneBody_recorderOnly, rfl⟩
  | forced => exact ⟨_, _, rfl, forcedBody_recorderOnly, rfl⟩

theorem recorder_takes {sink : Bool} (he : agentEnabled p (.recorder (.item sink)) s = true)
    (ht : exec (selectRow p (.recorder (.item sink)) s) s = .next t) : HeadTaken (·.qTrg) (s.pipe p) (t.pipe p) := by
  obtain ⟨hsome, hsink⟩ := Bool.and_eq_true_iff.mp he
  cases hq : (s.pipe p).qTrg with
  | nil => simp [tickItem, hq] at hsome
  | cons y rest =>
    obtain ⟨sel, body, hsel, hbody, hexec⟩ := exec_recorderRow (p := p) (s := s) (.item sink)
    have hready : sink = true ∨ tickWrites (s.pipe p).rcr.st (tickSees (some y) (s.pipe p).rcr) = false := by
      simpa [tickStores, tickItem, hq, sinkReady, or_comm] using hsink
    obtain ⟨r, m, hr⟩ := hbody (tickSees (some y) (s.pipe p).rcr) { s.pipe p with qTrg := rest }
    rw [selectRow, hexec, recorderStep_item hsel hq hready rfl hr] at ht
    cases ht
    exact ⟨y, by rw [State.setPipe_pipe]; exact hq⟩

end Enabled

/-! ### Runs -/

/-- No state selects START as a row of an agent. -/
theorem selectRow_ne_start {p r : Pipe} {a : Agent} {s : State} {v : Word} : selectRow p a s ≠ .start r v := by
  cases a with
  | aligner | labeller | trigger => exact nofun
  | writer =>
    simp only [selectRow, writerRow]
    split
    · exact nofun
    · split <;> exact nofun
  | reader => simp only [selectRow, readerRow]; split <;> exact nofun
  | recorder t => simp only [selectRow, recorderRow]; split <;> exact nofun

/-- A command leaves a pipeline as it was, or is an instruction that moves it, and START only by name. -/
theorem runCommand_moves {c : Command} {s t : State} (ht : runCommand c s = .next t) (p : Pipe) :
    t.pipe p = s.pipe p ∨
      ∃ i, Moves s.par p i (s.pipe p) (t.pipe p) ∧ ∀ v, i = .start p v → c = .instr (.start p v) := by
  cases c with
  | instr i => exact (exec_moves_pipe ht p).imp_right fun h => ⟨i, h, fun v hv => by rw [hv]⟩
  | agent r a => exact (exec_moves_pipe ht p).imp_right fun h => ⟨_, h, fun v hv => absurd hv selectRow_ne_start⟩
  | reservedWrite r off v => cases ht; exact .inl rfl
  | reservedRead r off => cases ht; exact .inl (State.withHostRd_pipe s 0 p)

theorem runCommand_par {c : Command} {s t : State} (ht : runCommand c s = .next t) : t.par = s.par := by
  cases c with
  | instr i =>
    obtain ⟨hpar, _⟩ := exec_keepsOwnFields ht
    exact hpar
  | agent r a =>
    obtain ⟨hpar, _⟩ := exec_keepsOwnFields ht
    exact hpar
  | reservedWrite r off v => cases ht; rfl
  | reservedRead r off => cases ht; rfl

section Run

variable {cmd : Nat → Command} {st : Nat → State} {p : Pipe}

theorem IsRun.inv (h : IsRun cmd st) (h0 : (st 0).Inv) (n : Nat) : (st n).Inv := by
  induction n with
  | zero => exact h0
  | succ n ih => exact runCommand_meetsInv (cmd n) ih _ (h n)

theorem IsRun.par_eq (h : IsRun cmd st) (n : Nat) : (st n).par = (st 0).par := by
  induction n with
  | zero => rfl
  | succ n ih => exact (runCommand_par (h n)).trans ih

/-- A step of the run that is no START of `p` is what every other move of `p` is, and what leaving it as it was is. -/
theorem IsRun.starts_or (h : IsRun cmd st) {P : PipelineState → PipelineState → Prop} (hrefl : ∀ q, P q q)
    (hmoves : ∀ {par i q q'}, Moves par p i q q' → IsStart p i ∨ P q q') (m : Nat) :
    StartsAt cmd p m ∨ P ((st m).pipe p) ((st (m + 1)).pipe p) := by
  rcases runCommand_moves (h m) p with hsame | ⟨i, hi, hname⟩
  · rw [hsame]
    exact .inr (hrefl _)
  · exact (hmoves hi).imp_left fun ⟨v, hv, hbit⟩ => ⟨v, hname v hv, hbit⟩

theorem StepsAt.enabled {a : Agent} {m : Nat} (h : StepsAt cmd st p a m) : agentEnabled p a (st m) = true := by
  obtain ⟨_, he⟩ := h
  exact he

theorem IsRun.exec_eq (h : IsRun cmd st) {a : Agent} {m : Nat} (hs : StepsAt cmd st p a m) :
    exec (selectRow p a (st m)) (st m) = .next (st (m + 1)) := by
  obtain ⟨hsched, _⟩ := hs
  rw [← hsched.runCommand_eq, h m]

/-- A queue's head is taken or an event `E` comes first, or the head waits for ever and every step keeps to `R`. -/
theorem processed_or_waits {α : Type} {queue : PipelineState → List α} {E : Nat → Prop} {R : PipelineState → PipelineState → Prop} {n : Nat}
    (hR : ∀ {q q'}, R q q' → Grows queue q q')
    (hstep : ∀ m, E m ∨ HeadTaken queue ((st m).pipe p) ((st (m + 1)).pipe p) ∨ R ((st m).pipe p) ((st (m + 1)).pipe p))
    (hne : queue ((st n).pipe p) ≠ []) :
    (∃ m, n ≤ m ∧ (TakesHeadAt queue st p m ∨ E m)) ∨
      ∀ m, n ≤ m → queue ((st m).pipe p) ≠ [] ∧ R ((st m).pipe p) ((st (m + 1)).pipe p) := by
  by_cases hp : ∃ m, n ≤ m ∧ (TakesHeadAt queue st p m ∨ E m)
  · exact .inl hp
  · have hwaits (m : Nat) (hm : n ≤ m) : R ((st m).pipe p) ((st (m + 1)).pipe p) := by
      rcases hstep m with hE | htaken | h
      · exact absurd ⟨m, hm, .inr hE⟩ hp
      · exact absurd ⟨m, hm, .inl htaken⟩ hp
      · exact h
    refine .inr fun m hm => ⟨?_, hwaits m hm⟩
    induction m, hm using Nat.le_induction with
    | base => exact hne
    | succ m hm ih =>
      obtain ⟨more, hmore⟩ := hR (hwaits m hm)
      rw [hmore]
      exact List.append_ne_nil_of_left_ne_nil ih more

/-! ### The queues of a fair run -/

variable {n : Nat}

theorem qRaw_taken (h : IsRun cmd st) (h0 : (st 0).Inv) (hfair : WeaklyFair cmd st p .aligner) (hne : ((st n).pipe p).qRaw ≠ []) :
    ∃ m, n ≤ m ∧ TakesHeadAt (·.qRaw) st p m := by
  have hstep (m : Nat) : False ∨ HeadTaken (·.qRaw) ((st m).pipe p) ((st (m + 1)).pipe p) ∨
      Grows (·.qRaw) ((st m).pipe p) ((st (m + 1)).pipe p) := by
    rcases runCommand_moves (h m) p with hsame | ⟨_, hi, _⟩
    · exact .inr (.inr (grows_of_eq (by rw [hsame])))
    · exact .inr hi.qRaw_step
  rcases processed_or_waits (E := fun _ => False) id hstep hne with ⟨m, hm, htaken⟩ | hwaits
  · exact ⟨m, hm, htaken.resolve_right id⟩
  · obtain ⟨m, hm, hs⟩ := hfair n fun m hm => by
      obtain ⟨hne, _⟩ := hwaits m hm
      simpa [agentEnabled] using hne
    exact ⟨m, hm, aligner_takes ((h.inv h0 m).pipe p).classifier hs.enabled (h.exec_eq hs)⟩

/-- An enabled head stays enabled while it waits: `cls.rem` stays, and the window only gets longer (40_classifier.md R155). -/
theorem labeller_stays_enabled {s t : State} (hw : LabqWaits (s.pipe p) (t.pipe p)) (he : agentEnabled p .labeller s = true) :
    agentEnabled p .labeller t = true := by
  obtain ⟨⟨more, hmore⟩, hrem⟩ := hw
  obtain ⟨x, rest, hq, hx⟩ := labeller_enabled_iff.mp he
  dsimp only at hmore
  refine labeller_enabled_iff.mpr ⟨x, rest ++ more, by rw [hmore, hq, List.cons_append], ?_⟩
  rw [← labelEnabled_append more hx]
  simp only [labelEnabled, hrem, hmore]

theorem labq_processed_or_held (h : IsRun cmd st) (hfair : WeaklyFair cmd st p .labeller) (hne : ((st n).pipe p).cls.labq ≠ []) :
    HeadProcessed (·.cls.labq) cmd st p n ∨
      ∀ m, n ≤ m → ((st m).pipe p).cls.labq ≠ [] ∧ agentEnabled p .labeller (st m) = false := by
  have hstep := h.starts_or (p := p) (fun _ => .inr ⟨grows_of_eq rfl, rfl⟩) Moves.labq_step
  refine (processed_or_waits (R := LabqWaits) And.left hstep hne).elim .inl fun hwaits => ?_
  by_cases henabled : ∃ k, n ≤ k ∧ agentEnabled p .labeller (st k) = true
  · obtain ⟨k, hk, he⟩ := henabled
    have hstays (m : Nat) (hm : k ≤ m) : agentEnabled p .labeller (st m) = true := by
      induction m, hm using Nat.le_induction with
      | base => exact he
      | succ m hm ih => exact labeller_stays_enabled (hwaits m (hk.trans hm)).2 ih
    obtain ⟨m, hm, hs⟩ := hfair k hstays
    exact .inl ⟨m, hk.trans hm, .inl (labeller_takes hs.enabled (h.exec_eq hs))⟩
  · exact .inr fun m hm => ⟨(hwaits m hm).1, Bool.eq_false_iff.mpr fun he => henabled ⟨m, hm, he⟩⟩

/-- A head that the labeller does not decide is a candidate set with too few transfers (the spec's D48). -/
theorem held_candidate {s : State} (hne : (s.pipe p).cls.labq ≠ []) (he : agentEnabled p .labeller s = false) :
    (s.pipe p).cls.rem = 0 ∧ (s.pipe p).cls.labq.length < 8 ∧
      ∃ x rest, (s.pipe p).cls.labq = x :: rest ∧ isCom x.lane0 = true ∧ shortSetType (window (s.pipe p).cls.labq) = none := by
  obtain ⟨x, rest, hq⟩ := List.exists_cons_of_ne_nil hne
  have hx : ¬ labelEnabled (s.pipe p).cls x = true := fun hx =>
    absurd (labeller_enabled_iff.mpr ⟨x, rest, hq, hx⟩) (Bool.eq_false_iff.mp he)
  rw [labelEnabled_iff] at hx
  simp only [not_or, not_not, Bool.not_eq_false, Bool.not_eq_true, Option.isSome_eq_false_iff, Option.isNone_iff_eq_none,
    Nat.not_le] at hx
  obtain ⟨hrem, hcom, hshort, hlen⟩ := hx
  exact ⟨hrem, hlen, x, rest, hq, hcom, hshort⟩

/-- While the FIFO's head waits the reader's rank does not rise. -/
theorem readerRank_le_of_waits {fe : Bool} {m : Nat} (hfe : ∀ m, n ≤ m → ((st m).pipe p).bank.filterEnable = fe)
    (hwaits : ∀ m, n ≤ m → FifoWaits ((st m).pipe p) ((st (m + 1)).pipe p)) (hm : n ≤ m) :
    readerRank fe ((st m).pipe p).flt.r ≤ readerRank fe ((st n).pipe p).flt.r := by
  induction m, hm using Nat.le_induction with
  | base => exact le_rfl
  | succ m hm ih =>
    obtain ⟨_, hle⟩ := hwaits m hm
    rw [hfe m hm] at hle
    exact hle.trans ih

/-- A reader that steps again and again pops the head: every other step of its lowers its rank. -/
theorem fifo_popped (h : IsRun cmd st) {fe : Bool} (hsteps : ∀ m, n ≤ m → ∃ k, m ≤ k ∧ StepsAt cmd st p .reader k)
    (hfe : ∀ m, n ≤ m → ((st m).pipe p).bank.filterEnable = fe)
    (hwaits : ∀ m, n ≤ m → FifoWaits ((st m).pipe p) ((st (m + 1)).pipe p)) {bound : Nat}
    (hbound : readerRank fe ((st n).pipe p).flt.r < bound) : ∃ m, n ≤ m ∧ TakesHeadAt (·.flt.fifo) st p m := by
  induction bound generalizing n with
  | zero => exact absurd hbound (Nat.not_lt_zero _)
  | succ bound ih =>
    obtain ⟨m, hm, hs⟩ := hsteps n le_rfl
    have hread := reader_steps hs.enabled (h.exec_eq hs)
    rw [hfe m hm] at hread
    rcases hread.progress with htaken | ⟨_, hlow⟩
    · exact ⟨m, hm, htaken⟩
    · have hnext {k : Nat} (hk : m + 1 ≤ k) : n ≤ k := hm.trans (m.le_succ.trans hk)
      have hrank := hlow.trans_le ((readerRank_le_of_waits hfe hwaits hm).trans (Nat.le_of_lt_succ hbound))
      obtain ⟨k, hk, htaken⟩ := ih (fun k hk => hsteps k (hnext hk)) (fun k hk => hfe k (hnext hk)) (fun k hk => hwaits k (hnext hk)) hrank
      exact ⟨k, hnext hk, htaken⟩

/-- While the FIFO's head waits the reader is enabled, and so it steps again and again. -/
theorem fifo_processed (h : IsRun cmd st) (hfair : WeaklyFair cmd st p .reader)
    (hfe : ∀ m, n ≤ m → ((st m).pipe p).bank.filterEnable = ((st n).pipe p).bank.filterEnable)
    (hne : ((st n).pipe p).flt.fifo ≠ []) : HeadProcessed (·.flt.fifo) cmd st p n := by
  have hstep := h.starts_or (p := p) (fun _ => .inr ⟨grows_of_eq rfl, le_rfl⟩) Moves.fifo_step
  refine (processed_or_waits (R := FifoWaits) And.left hstep hne).elim id fun hwaits => ?_
  have hsteps (m : Nat) (hm : n ≤ m) : ∃ k, m ≤ k ∧ StepsAt cmd st p .reader k :=
    hfair m fun k hk => reader_enabled_of_fifo (hwaits k (hm.trans hk)).1
  obtain ⟨m, hm, htaken⟩ := fifo_popped h hsteps hfe (fun m hm => (hwaits m hm).2) (Nat.lt_succ_self _)
  exact ⟨m, hm, .inl htaken⟩

/-- While the head of `q_cls` waits the FIFO does not grow, so that once the reader has made room the writer stays enabled. -/
theorem qCls_processed (h : IsRun cmd st) (h0 : (st 0).Inv) (hwriter : WeaklyFair cmd st p .writer)
    (hreader : WeaklyFair cmd st p .reader)
    (hfe : ∀ m, n ≤ m → ((st m).pipe p).bank.filterEnable = ((st n).pipe p).bank.filterEnable)
    (hne : ((st n).pipe p).qCls ≠ []) : HeadProcessed (·.qCls) cmd st p n := by
  have hstep := h.starts_or (p := p) (fun _ => .inr ⟨grows_of_eq rfl, le_rfl⟩) Moves.qCls_step
  refine (processed_or_waits (R := QClsWaits) And.left hstep hne).elim id fun hwaits => ?_
  have hpar (m : Nat) : (st m).par.fifoDepth = (st n).par.fifoDepth := by rw [h.par_eq m, h.par_eq n]
  have hdone {k : Nat} (hk : n ≤ k) (hroom : ((st k).pipe p).flt.fifo.length < (st k).par.fifoDepth) :
      HeadProcessed (·.qCls) cmd st p n := by
    have hstays (m : Nat) (hm : k ≤ m) : ((st m).pipe p).flt.fifo.length < (st m).par.fifoDepth := by
      induction m, hm using Nat.le_induction with
      | base => exact hroom
      | succ m hm ih =>
        obtain ⟨_, _, hle⟩ := hwaits m (hk.trans hm)
        rw [hpar] at ih ⊢
        exact hle.trans_lt ih
    obtain ⟨m, hm, hs⟩ := hwriter k fun m hm => writer_enabled_iff.mpr ⟨(hwaits m (hk.trans hm)).1, hstays m hm⟩
    exact ⟨m, hk.trans hm, .inl (writer_takes hs.enabled (h.exec_eq hs))⟩
  by_cases hfull : ((st n).pipe p).flt.fifo.length < (st n).par.fifoDepth
  · exact hdone le_rfl hfull
  · have hdepth : 1 ≤ (st n).par.fifoDepth := by
      obtain ⟨_, _, hdepth, _⟩ := (h.inv h0 n).valid
      exact hdepth
    obtain ⟨m, hm, ⟨x, hpop⟩ | hstart⟩ := fifo_processed h hreader hfe (List.ne_nil_of_length_pos (by omega))
    · refine hdone (hm.trans m.le_succ) ?_
      have hle := ((h.inv h0 m).pipe p).filter.room
      dsimp only at hpop
      rw [hpop, List.length_cons] at hle
      rw [hpar] at hle ⊢
      exact hle
    · exact ⟨m, hm, .inr hstart⟩

theorem qFlt_processed (h : IsRun cmd st) (hfair : WeaklyFair cmd st p .trigger) (hne : ((st n).pipe p).qFlt ≠ []) :
    HeadProcessed (·.qFlt) cmd st p n := by
  have hstep := h.starts_or (p := p) (fun _ => .inr (grows_of_eq rfl)) Moves.qFlt_step
  refine (processed_or_waits id hstep hne).elim id fun hwaits => ?_
  obtain ⟨m, hm, hs⟩ := hfair n fun m hm => by
    obtain ⟨hne, _⟩ := hwaits m hm
    simpa [agentEnabled] using hne
  exact ⟨m, hm, .inl (trigger_takes hs.enabled (h.exec_eq hs))⟩

theorem qTrg_processed (h : IsRun cmd st) (hitems : TakesItems cmd st p) (hne : ((st n).pipe p).qTrg ≠ []) :
    HeadProcessed (·.qTrg) cmd st p n := by
  have hstep := h.starts_or (p := p) (fun _ => .inr (grows_of_eq rfl)) Moves.qTrg_step
  refine (processed_or_waits id hstep hne).elim id fun hwaits => ?_
  obtain ⟨m, r, hm, hs⟩ := hitems n fun m hm => (hwaits m hm).1
  exact ⟨m, hm, .inl (recorder_takes hs.enabled (h.exec_eq hs))⟩

end Run

/-- Settles O59: the head of each queue is taken, or waits for ever with its agent enabled, against fairness; the labeller alone can be
held, by a candidate set. -/
theorem fairRunsProcessTheHeadOfEveryQueue : Obligations.FairRunsProcessTheHeadOfEveryQueue := by
  intro cmd st sink p n h0 hrun hfair filterStays
  obtain ⟨hagents, _, _, hitems⟩ := hfair p
  have haligner := hagents .aligner (by simp)
  have hlabeller := hagents .labeller (by simp)
  have hwriter := hagents .writer (by simp)
  have hreader := hagents .reader (by simp)
  have htrigger := hagents .trigger (by simp)
  refine ⟨qRaw_taken hrun h0 haligner, fun hne => ?_, fun hne hfe => qCls_processed hrun h0 hwriter hreader hfe hne,
    fun hne hfe => fifo_processed hrun hreader hfe hne, qFlt_processed hrun htrigger, qTrg_processed hrun hitems⟩
  refine (labq_processed_or_held hrun hlabeller hne).imp_right fun hheld m hm => ?_
  obtain ⟨hwaits, he⟩ := hheld m hm
  exact held_candidate hwaits he

end Sys2Proof.Machine
end

section
/-! PROOF. The bank's registers as the host writes and reads them, and the two commands (45_host.md R391 to R401). -/

namespace Sys2Proof.Machine

open Sys2Proof.Config Host

/-! ### Field values -/

/-- A flag reads as 1 exactly where the condition it stands for holds. -/
theorem boolWord_of_iff {b : Bool} {c : Prop} [Decidable c] (h : b = true ↔ c) : boolWord b = if c then 1 else 0 := by
  by_cases hc : c
  · rw [if_pos hc, h.mpr hc]; rfl
  · rw [if_neg hc, Bool.eq_false_iff.mpr (mt h.mp hc)]; rfl

theorem recModeOfBit_eq (b : Bool) : recModeOfBit b = if b then .frame else .raw := by cases b <;> rfl

theorem RecMode.bit_iff {m : RecMode} : m.bit = true ↔ m = .frame := by cases m <;> decide

/-! ### Configuration registers (R391 to R399) -/

/-- Settles O11: each write replaces one field of the bank; FILTER_CONFIG takes the low bits and REC_MODE the mode of its bit. -/
theorem configurationWritesStoreTheirField : Obligations.ConfigurationWritesStoreTheirField := by
  rintro p v s _ rfl
  refine ⟨rfl, ?_, rfl, rfl, ?_, rfl, rfl⟩
  · rw [BitVec.setWidth_eq_extractLsb' (by decide)]; rfl
  · rw [← recModeOfBit_eq]; rfl

/-- Settles O13: a field of 32 bits reads as itself, a narrower one as its zero extension, a flag as `boolWord`. -/
theorem configurationReadsReturnTheStoredField : Obligations.ConfigurationReadsReturnTheStoredField := by
  rintro p s _ rfl
  simp only [BitVec.ofNat_toNat]
  refine ⟨?_, rfl, rfl, ?_, rfl, ?_, rfl, rfl, ?_⟩
  · rw [← boolWord_of_iff Iff.rfl]; rfl
  · rw [← boolWord_of_iff Iff.rfl]; rfl
  · rw [← boolWord_of_iff RecMode.bit_iff]; rfl
  · cases p <;> rfl

section TrigSize

variable {p : Pipe} {v : Word} {s : State}

theorem exec_wrTrigSize_above (h : s.par.memSize < v.toNat) : exec (.wrTrigSize p v) s = .refused .trigSizeAboveMemSize := if_pos h

theorem exec_wrTrigSize_upTo (h : v.toNat ≤ s.par.memSize) :
    exec (.wrTrigSize p v) s =
      .next (s.setPipe p { s.pipe p with bank := { (s.pipe p).bank with trigSize := v.extractLsb' 0 9 } }) :=
  if_neg (Nat.not_lt.mpr h)

theorem exec_rdTrigSize : exec (.rdTrigSize p) s = .next { s with hostRd := (s.pipe p).bank.trigSize.setWidth 32 } := rfl

end TrigSize

/-- Settles O12: MEM_SIZE is at most 256, so a value that is not refused fits TRIG_SIZE's 9 bits. -/
theorem trigSizeWriteStoresUpToMemSizeElseIsRefused : Obligations.TrigSizeWriteStoresUpToMemSizeElseIsRefused := by
  rintro p v s _ rfl hv
  refine ⟨exec_wrTrigSize_above, fun hle => ?_⟩
  obtain ⟨_, hmem, _⟩ := hv
  have hfits : v = (v.extractLsb' 0 9).setWidth 32 := eq_setWidth_extractLsb' (by omega)
  rw [exec_wrTrigSize_upTo hle, BitVec.setWidth_eq_extractLsb' (by decide)]
  refine ⟨rfl, ?_⟩
  simp only [andThen, exec_rdTrigSize, State.setPipe_pipe, ← hfits]

/-! ### START and STOP (R400, R401) -/

section Commands

variable {p : Pipe} {v : Word} {s : State}

theorem exec_start_set (h : v.getLsbD 0 = true) :
    exec (.start p v) s = .next (s.setPipe p (startPipeline s.par p (s.pipe p))) := if_pos h

theorem exec_start_clear (h : v.getLsbD 0 = false) : exec (.start p v) s = .next s := if_neg (Bool.eq_false_iff.mp h)

theorem exec_stop_set {st : RecSt} (h : v.getLsbD 0 = true) (hst : stopState (s.pipe p).rcr.st = st) :
    exec (.stop p v) s = .next (s.setPipe p { s.pipe p with rcr := { (s.pipe p).rcr with st := st } }) := by
  subst hst
  exact if_pos h

theorem exec_stop_clear (h : v.getLsbD 0 = false) : exec (.stop p v) s = .next s := if_neg (Bool.eq_false_iff.mp h)

end Commands

theorem stopState_capturing {st : RecSt} (h : st ∈ [RecSt.fillPreTrig, .waitTrigger, .fillPostTrig, .forced]) :
    stopState st = .abort := by
  cases st <;> simp_all [stopState]

theorem stopState_finished {st : RecSt} (h : st ∈ [RecSt.done, .abort]) : stopState st = .idle := by
  cases st <;> simp_all [stopState]

/-- Settles O14: the reset values that START writes are those of R400. -/
theorem startRestartsItsPipeline : Obligations.StartRestartsItsPipeline := by
  rintro p v s _ rfl
  exact ⟨exec_start_set, exec_start_clear⟩

/-- Settles O15: STOP's move by its case table; from IDLE it puts the state back that is there. -/
theorem stopMovesTheRecorderAlone : Obligations.StopMovesTheRecorderAlone := by
  rintro p v s _ rfl
  refine ⟨fun hset => ⟨fun hst => exec_stop_set hset (stopState_capturing hst),
    fun hst => exec_stop_set hset (stopState_finished hst), fun hidle => ?_⟩, exec_stop_clear⟩
  have hstay : stopState (s.pipe p).rcr.st = (s.pipe p).rcr.st := by rw [hidle]; rfl
  rw [exec_stop_set hset hstay, State.setPipe_self]

end Sys2Proof.Machine
end

section
/-! PROOF. The pattern table: an entry as a register value, and its accesses (45_host.md R402, R403, 30_encoding.md R111). -/

namespace Sys2Proof.Machine

open Sys2Proof.Config Host

theorem PatternEntry.toWord_toNat (e : PatternEntry) :
    e.toWord.toNat = e.dataByte.toNat + 256 * e.dataDontcare.toNat + 512 * e.ctrlBit.toNat + 1024 * e.ctrlDontcare.toNat := by
  rw [PatternEntry.toWord, BitVec.toNat_setWidth_of_le (by decide)]
  simp only [toNat_append_eq, BitVec.toNat_ofBool]
  omega

/-- A register value's bits [10:0] are the entry's fields in R403's order. -/
theorem PatternEntry.toWord_ofWord (v : Word) : (PatternEntry.ofWord v).toWord = v &&& 0x7FF := by
  have hmask : (v &&& 0x7FF).toNat = v.toNat % 2 ^ 11 := by
    rw [BitVec.toNat_and]
    exact Nat.and_two_pow_sub_one_eq_mod v.toNat 11
  apply BitVec.eq_of_toNat_eq
  rw [PatternEntry.toWord_toNat, hmask]
  simp only [PatternEntry.ofWord, BitVec.extractLsb'_toNat, Nat.shiftRight_zero, BitVec.getLsbD, Nat.toNat_testBit]
  omega

theorem PatternEntry.ofWord_eq (v : Word) :
    PatternEntry.ofWord v = ⟨v.setWidth 8, v.getLsbD 8, v.getLsbD 9, v.getLsbD 10⟩ := by
  rw [BitVec.setWidth_eq_extractLsb' (by decide)]
  rfl

section Accesses

variable {p : Pipe} {i : Byte} {v : Word} {s : State}

theorem exec_wrPattern_inTable (h : i.toNat < s.par.memSize) :
    exec (.wrPattern p i v) s =
      .next (s.setPipe p { s.pipe p with pattern := (s.pipe p).pattern.set i.toNat (.ofWord v) }) := if_pos h

theorem exec_wrPattern_reserved (h : s.par.memSize ≤ i.toNat) : exec (.wrPattern p i v) s = .next s := if_neg (Nat.not_lt.mpr h)

theorem exec_rdPattern_inTable {e : PatternEntry} (h : i.toNat < s.par.memSize) (he : (s.pipe p).pattern[i.toNat]? = some e) :
    exec (.rdPattern p i) s = .next { s with hostRd := e.toWord } := by
  simp only [exec, execRdPattern, if_pos h, List.getD_eq_getElem?_getD, he, Option.getD_some, hostRead_eq]

theorem exec_rdPattern_reserved (h : s.par.memSize ≤ i.toNat) : exec (.rdPattern p i) s = .next { s with hostRd := 0 } := by
  simp only [exec, execRdPattern, if_neg (Nat.not_lt.mpr h), hostRead_eq]

end Accesses

/-- Settles O16: an access inside the table reads or replaces its entry; the entry just written is the one read back. -/
theorem patternEntriesAreWrittenAndReadBack : Obligations.PatternEntriesAreWrittenAndReadBack := by
  rintro p i v s _ rfl
  refine ⟨fun h => ?_, fun e h he => ⟨e.toWord, exec_rdPattern_inTable h he, e.toWord_toNat⟩, fun h hlen => ?_,
    fun h => ⟨exec_wrPattern_reserved h, exec_rdPattern_reserved h⟩⟩
  · rw [exec_wrPattern_inTable h, PatternEntry.ofWord_eq]
  · rw [exec_wrPattern_inTable h]
    refine ⟨_, exec_rdPattern_inTable (by rwa [State.setPipe_par]) ?_, PatternEntry.toWord_ofWord v⟩
    rw [State.setPipe_pipe]
    exact List.getElem?_set_self hlen

end Sys2Proof.Machine
end

section
/-! PROOF. The status and geometry registers, and the accesses that have no effect or are refused (45_host.md R404 to R410). -/

namespace Sys2Proof.Machine

open Sys2Proof.Config Host

/-! ### Status and geometry (R404 to R408) -/

theorem triggered_iff {t : TriggerState} : triggered t = true ↔ t.st = .done := beq_iff_eq

theorem finished_iff {r : RecorderState} : finished r = true ↔ r.st ∈ [RecSt.done, .abort] := by
  simp only [finished, Bool.or_eq_true, beq_iff_eq, List.mem_cons, List.not_mem_nil, or_false]

/-- A number that fits a register loses no bit in it. -/
theorem toNat_ofNat_of_lt {n w : Nat} (h : n < 2 ^ w) : (BitVec.ofNat w n).toNat = n := by
  rw [BitVec.toNat_ofNat, Nat.mod_eq_of_lt h]

section Geometry

variable {par : Params}

theorem base_lt (hv : par.Valid) (p : Pipe) : par.base p < 2 ^ 32 := by
  obtain ⟨hlen, _, _, hlimit⟩ := hv.ringValid p
  rw [Params.limit] at hlimit
  omega

/-- Neither ring fills the address space: the other, which is not empty, lies outside it. -/
theorem length_lt (hv : par.Valid) (p : Pipe) : par.length p < 2 ^ 32 := by
  obtain ⟨_, _, _, _, ⟨hrx, _, _, hlimrx⟩, ⟨htx, _, _, hlimtx⟩, hdisjoint⟩ := hv
  simp only [Params.limit, Params.base, Params.length] at *
  cases p <;> dsimp only <;> omega

/-- A ring holds at least one record. -/
theorem addrStep_lt (hv : par.Valid) : par.addrStep < 2 ^ 32 := by
  obtain ⟨hlen, hmultiple, _, _⟩ := hv.ringValid .rx
  exact (Nat.le_of_dvd hlen (Nat.dvd_of_mod_eq_zero hmultiple)).trans_lt (length_lt hv .rx)

end Geometry

/-- Settles O17: the reads return the flags, the address and the code, and geometry under R8's constraints fits 32 bits. -/
theorem statusAndGeometryReadsReport : Obligations.StatusAndGeometryReadsReport := by
  rintro p s _ rfl hv
  refine ⟨?_, ?_, rfl, ?_, _, _, _, toNat_ofNat_of_lt (base_lt hv p), toNat_ofNat_of_lt (length_lt hv p),
    toNat_ofNat_of_lt (addrStep_lt hv), rfl, rfl, rfl, rfl⟩
  · rw [← boolWord_of_iff triggered_iff]; rfl
  · rw [← boolWord_of_iff finished_iff]; rfl
  · change Outcome.next { s with hostRd := (s.pipe p).rcr.st.code.setWidth 32 } = _
    cases (s.pipe p).rcr.st <;> rfl

/-! ### Accesses without effect (R409) -/

/-- Settles O18: each access is an ignored write or a read of 0; a reserved offset's word decodes to a reserved access. -/
theorem otherAccessesReadZeroOrAreIgnored : Obligations.OtherAccessesReadZeroOrAreIgnored := by
  intro p v s
  refine ⟨?_, rfl, rfl, fun off rest hv hres => ⟨fun hsched => ?_, fun hsched => ?_⟩⟩
  · simp only [List.forall_mem_cons]
    exact ⟨rfl, rfl, rfl, rfl, rfl, rfl, rfl, rfl, List.forall_mem_nil _⟩
  · exact step_eq_runCommand hv hsched (decode_encodeCommand (c := .reservedRead p off) hres)
  · exact step_eq_runCommand hv hsched (decode_encodeCommand (c := .reservedWrite p off v) hres)

/-! ### Refused accesses (R410) and parameters (R8) -/

theorem step_of_invalid {s : State} (h : ¬ s.par.Valid) : step s = .refused .badParameters := if_neg h

/-- A word that decodes to no command is refused by the name of its error. -/
theorem step_eq_refused {s : State} {w : CmdWord} {rest : List CmdWord} {e : DecodeError} (hv : s.par.Valid)
    (hsched : s.sched = w :: rest) (hdec : decode w = .error e) : step s = .refused (refusalOf e) := by
  rw [step, if_pos hv, systemStep, fetch_cons hsched]
  simp only [runWord, hdec]

section Access

variable {f : CmdFields}

theorem decodeAccess_not32Bit (select : BitVec 12 → Command) (h : f.width ≠ 0) : decodeAccess f select = .error .not32Bit := if_pos h

theorem decodeAccess_unaligned (select : BitVec 12 → Command) (hwidth : f.width = 0) (h : f.code.toNat % 4 ≠ 0) :
    decodeAccess f select = .error .unaligned := by
  have hlow : f.code.extractLsb' 0 2 ≠ 0 := fun h0 => h (by have := extractLsb'_eq_zero_iff.mp h0; omega)
  rw [decodeAccess, if_neg (not_not.mpr hwidth), if_pos hlow]

/-- A host write, and a host read without stray bits, is decoded as an access. -/
theorem decodeFields_eq_decodeAccess (h : f.fmt = 0 ∨ f.fmt = 1 ∧ f.value = 0) :
    ∃ select, decodeFields f = decodeAccess f select := by
  rcases h with hfmt | ⟨hfmt, hvalue⟩
  · exact ⟨_, by rw [decodeFields, hfmt]; rfl⟩
  · refine ⟨readAt (pipeOfBit f.pipe), ?_⟩
    rw [decodeFields, hfmt]
    exact if_neg (not_not.mpr hvalue)

end Access

/-- Settles O3: the access decoder names the two bad accesses, WR_TRIG_SIZE and the step name their own refusals. -/
theorem badHostAccessesAreRefused : Obligations.BadHostAccessesAreRefused := by
  refine ⟨fun s f rest hv hsched hfmt => ?_, fun _ _ _ => exec_wrTrigSize_above, fun _ => step_of_invalid⟩
  obtain ⟨select, hdec⟩ := decodeFields_eq_decodeAccess hfmt
  rw [← decode_toWord] at hdec
  refine ⟨fun hwidth => ?_, fun hwidth halign => ?_⟩
  · exact step_eq_refused hv hsched (hdec.trans (decodeAccess_not32Bit select hwidth))
  · exact step_eq_refused hv hsched (hdec.trans (decodeAccess_unaligned select hwidth halign))

end Sys2Proof.Machine
end

section
/-! PROOF. No condition in this core is fatal, and what raises each error event (60_exceptions.md R440 to R442, R444, R447). -/

namespace Sys2Proof.Machine

open Sys2Proof.Config Host

/-! ### Instructions that answer a next state (R444, R447) -/

section Answers

variable {p : Pipe} {s : State}

/-- A stalled or unselected agent answers its own state (log 4). -/
theorem agentStep_answers (act : PipelineState → Option PipelineState) : ∃ t, agentStep p act s = .next t :=
  ⟨_, agentStep_eq p act s⟩

theorem conditionalWrite_answers {c : Prop} [Decidable c] (f : PipelineState → PipelineState) :
    ∃ t, (if c then hostWrite p f s else ignoredWrite s) = .next t := by
  split
  · exact ⟨_, hostWrite_eq p f s⟩
  · exact ⟨s, ignoredWrite_eq s⟩

end Answers

/-- Only the meaning of WR_TRIG_SIZE has a branch that stops: an agent's step and a write under a condition answer in both branches,
and the other host accesses, the symbols and CLOCK have none. -/
theorem exec_answers {i : Instr} (hi : ∀ p v, i ≠ .wrTrigSize p v) (s : State) : ∃ t, exec i s = .next t := by
  cases i with
  | wrTrigSize p v => exact absurd rfl (hi p v)
  | align _ | label _ | filtWriteFind _ | filtWriteOsbody _ | filtWritePkt _ | filtWritePass _ | filtReadPass _ | filtReadSelect _
  | filtReadTsins _ | filtReadDrain _ | trig _ | recTickIdle _ _ | recTickPre _ _ | recTickWait _ _ | recTickPost _ _
  | recTickDoneAbort _ _ | recTickForced _ _ => exact agentStep_answers _
  | start _ _ | stop _ _ | wrPattern _ _ _ => exact conditionalWrite_answers _
  | _ => exact ⟨_, rfl⟩

/-- Settles O10: WR_TRIG_SIZE stores or refuses by its value, and every other instruction answers a next state. -/
theorem onlyAnOversizedPatternIsRefused : Obligations.OnlyAnOversizedPatternIsRefused := by
  intro i s
  by_cases hi : ∃ p v, i = .wrTrigSize p v
  · obtain ⟨p, v, rfl⟩ := hi
    rcases Nat.lt_or_ge s.par.memSize v.toNat with habove | hupTo
    · exact .inr ⟨p, v, rfl, habove, exec_wrTrigSize_above habove⟩
    · exact .inl ⟨_, exec_wrTrigSize_upTo hupTo⟩
  · exact .inl (exec_answers (fun p v h => hi ⟨p, v, h⟩) s)

/-! ### EV_FRAME_TIMEOUT (R441) -/

section FrameTimeout

variable {par : Params} {q : PipelineState} {clock timeout : Word} {x : ClassifiedTransfer} {k : PktKind} {c : Nat} {f : FilterState}
  {it : FifoItem} {p : Pipe} {s t : State}

/-- The condition of the event: the PKT row steps on an item without a start symbol, past the timeout. -/
theorem timesOut_iff : timesOut par q = true ↔
    ∃ x rest k c, q.qCls = x :: rest ∧ q.flt.w = .pkt k c ∧ q.bank.filterEnable = true ∧ q.flt.fifo.length < par.fifoDepth ∧
      x.holdsStart = false ∧ q.bank.timeout.toNat < c + 1 := by
  cases hq : q.qCls with
  | nil => simp [timesOut, hq]
  | cons x rest => cases hw : q.flt.w <;> simp [timesOut, hq, hw, ClassifiedTransfer.holdsStart, and_assoc]

theorem eq_of_enqueue_fifo {a : FifoItem} {w : WState} (h : (f.enqueue a w).fifo = f.fifo ++ [it]) : a = it :=
  List.singleton_inj.mp (List.append_cancel_left h)

/-- FIND admits no item with `err = 1` (R201, R202). -/
theorem writeFind_admits_noErr (h : (writeFind clock x f).fifo = f.fifo ++ [it]) : it.err = false := by
  unfold writeFind at h
  dsimp only at h
  split at h
  · rw [← eq_of_enqueue_fifo h]; rfl
  · split at h
    · rw [← eq_of_enqueue_fifo h]; rfl
    · split at h
      · rw [← eq_of_enqueue_fifo h]; rfl
      · simp at h

/-- PKT admits an item with `err = 1` only by its timeout (R205). -/
theorem writePkt_admits_err (h : (writePkt clock timeout x k c f).fifo = f.fifo ++ [it]) (herr : it.err = true) :
    x.holdsStart = false ∧ timeout.toNat < c + 1 := by
  cases hs : x.holdsStart with
  | true =>
    rw [writePkt_preempted hs] at h
    exact absurd (herr.symm.trans (writeFind_admits_noErr h)) (by decide)
  | false =>
    refine ⟨rfl, Nat.lt_of_not_le fun ht => ?_⟩
    cases he : x.holdsEnd with
    | true =>
      rw [writePkt_ended hs ht he] at h
      simp [← eq_of_enqueue_fifo h, fifoItem] at herr
    | false =>
      rw [writePkt_payload hs ht he] at h
      simp [← eq_of_enqueue_fifo h, fifoItem] at herr

/-- The event's condition is what the PKT step does: it admits an item with `err = 1`. -/
theorem timesOut_iff_admits_err (ht : exec (.filtWritePkt p) s = .next t) :
    timesOut s.par (s.pipe p) = true ↔ ∃ it, (t.pipe p).flt.fifo = (s.pipe p).flt.fifo ++ [it] ∧ it.err = true := by
  rw [timesOut_iff]
  constructor
  · rintro ⟨x, rest, k, c, hq, hw, hen, hroom, hs, hlate⟩
    have hrow := (pktRow_selected (clock := s.clock) (x := x) hen hw).trans (congrArg some (writePkt_timedOut hs hlate))
    cases ht.symm.trans (writerStep_of_row hq hroom hrow)
    rw [State.setPipe_pipe]
    exact ⟨_, rfl, rfl⟩
  · rintro ⟨it, hadmits, herr⟩
    rcases agentStep_next ht with ⟨_, rfl⟩ | ⟨q, hact, rfl⟩
    · simp at hadmits
    · obtain ⟨x, rest, f, hq, hroom, hrow, rfl⟩ := writerAction_some hact
      obtain ⟨hen, k, c, hw⟩ := pktRow_some hrow
      obtain rfl := Option.some.inj (hrow.symm.trans (pktRow_selected hen hw))
      rw [State.setPipe_pipe] at hadmits
      obtain ⟨hs, hlate⟩ := writePkt_admits_err hadmits herr
      exact ⟨x, rest, k, c, hq, hw, hen, hroom, hs, hlate⟩

theorem errorEvents_filtWritePkt_admits (ht : exec (.filtWritePkt p) s = .next t)
    (hadmits : (t.pipe p).flt.fifo = (s.pipe p).flt.fifo ++ [it]) :
    errorEvents (.filtWritePkt p) s = if it.err = true then [.frameTimeout] else [] := by
  refine if_congr ((timesOut_iff_admits_err ht).trans ?_) rfl rfl
  simp [hadmits]

theorem errorEvents_filtWritePkt_keeps (ht : exec (.filtWritePkt p) s = .next t)
    (hkept : (t.pipe p).flt.fifo = (s.pipe p).flt.fifo) : errorEvents (.filtWritePkt p) s = [] := by
  refine if_neg (mt (timesOut_iff_admits_err ht).mp ?_)
  simp [hkept]

end FrameTimeout

/-! ### EV_ABORT (R442) -/

theorem stopState_eq_abort_iff {st : RecSt} :
    stopState st = .abort ↔ st ∈ [RecSt.fillPreTrig, .waitTrigger, .fillPostTrig, .forced] := by
  cases st <;> decide

theorem aborts_iff {v : Word} {st : RecSt} :
    aborts v st = true ↔ v.getLsbD 0 = true ∧ st ∈ [RecSt.fillPreTrig, .waitTrigger, .fillPostTrig, .forced] := by
  rw [aborts, Bool.and_eq_true, beq_iff_eq, stopState_eq_abort_iff]

/-! ### EV_MISMATCH (R262, R263) -/

section Mismatch

variable {tbl : List PatternEntry} {size n : Nat} {b0 b1 : SymByte}

/-- A track's result is 0 where an entry that it compares does not match. -/
theorem matchPair_eq_zero_iff : matchPair tbl size n b0 b1 = 0 ↔
    entryMatches (tbl.getD n .reset) b0 = false ∨ (n + 1 < size ∧ entryMatches (tbl.getD (n + 1) .reset) b1 = false) := by
  rw [matchPair_eq, ite_eq_right_iff]
  simp only [Nat.add_eq_zero_iff, OfNat.ofNat_ne_zero, and_false, imp_false, not_and_or, not_or, Bool.not_eq_true, Nat.not_le]

theorem unalignedTrack_eq_zero_iff : unalignedTrack tbl size n b0 b1 = 0 ↔
    if n = 0 then entryMatches (tbl.getD 0 .reset) b1 = false
    else entryMatches (tbl.getD n .reset) b0 = false ∨ (n + 1 < size ∧ entryMatches (tbl.getD (n + 1) .reset) b1 = false) := by
  by_cases hn : n = 0
  · subst hn
    rw [unalignedTrack_zero, if_pos rfl, ite_eq_right_iff]
    simp only [one_ne_zero, imp_false, Bool.not_eq_true]
  · rw [unalignedTrack_of_ne_zero _ _ _ _ hn, if_neg hn, matchPair_eq_zero_iff]

variable {q : PipelineState} {y : FiltOut} {rest : List FiltOut}

/-- The condition of the event at an item: the armed engine compares it, and a track's result is 0. -/
theorem mismatches_iff (hq : q.qFlt = y :: rest) : mismatches q = true ↔
    (q.bank.trigArmed = true ∧ q.trg.st ≠ .done ∧ y.isTs = false ∧ q.trg.armed.pa < q.bank.trigSize.toNat ∧
      q.trg.armed.pu < q.bank.trigSize.toNat) ∧
    (alignedTrack q.pattern q.bank.trigSize.toNat q.trg.armed.pa (lane0Of y.data y.ctrl) (lane1Of y.data y.ctrl) = 0 ∨
      unalignedTrack q.pattern q.bank.trigSize.toNat q.trg.armed.pu (lane0Of y.data y.ctrl) (lane1Of y.data y.ctrl) = 0) := by
  have hpointers : (if q.trg.st = .idle then (0, 0) else (q.trg.pa, q.trg.pu)) = (q.trg.armed.pa, q.trg.armed.pu) := by
    rw [TriggerState.armed_pa, TriggerState.armed_pu]
    split_ifs <;> rfl
  simp only [mismatches, hq, hpointers, Bool.and_eq_true, Bool.or_eq_true, bne_iff_ne, beq_iff_eq, Bool.not_eq_true',
    decide_eq_true_iff, and_assoc]

end Mismatch

theorem errorEvents_trig_empty {p : Pipe} {s : State} (hq : (s.pipe p).qFlt = []) : errorEvents (.trig p) s = [] :=
  if_neg (by simp [mismatches, hq])

/-! ### EV_OS_MALFORMED (R154) -/

section OsMalformed

variable {c : ClassifierState} {q : PipelineState} {x : Xfer} {rest : List Xfer} {p : Pipe} {s t : State}

/-- Outside a set, a lane-0 COM is labelled with the window's type. -/
theorem labelHead_of_com (hrem : c.rem = 0) (hcom : isCom x.lane0 = true) : (labelHead c x).1 = clsType (window c.labq) := by
  by_cases hdata : clsType (window c.labq) = .data
  · rw [labelHead_of_com_data hrem hcom hdata, hdata]
  · rw [labelHead_of_com_set hrem hcom rfl hdata]

/-- The condition of the event at a head: the labeller steps, and labels a lane-0 COM outside a set DATA. -/
theorem malformedSet_iff (hq : q.cls.labq = x :: rest) : malformedSet q = true ↔
    labelEnabled q.cls x = true ∧ q.cls.rem = 0 ∧ isCom x.lane0 = true ∧ (labelHead q.cls x).1 = .data := by
  have hlabel : q.cls.rem = 0 ∧ isCom x.lane0 = true ∧ (labelHead q.cls x).1 = .data ↔
      q.cls.rem = 0 ∧ isCom x.lane0 = true ∧ clsType (window q.cls.labq) = .data :=
    and_congr_right fun hrem => and_congr_right fun hcom => by rw [labelHead_of_com hrem hcom]
  rw [hlabel, hq]
  simp only [malformedSet, hq, Bool.and_eq_true, decide_eq_true_iff, beq_iff_eq, and_assoc]

theorem errorEvents_label_emits {y : ClassifiedTransfer} (hq : (s.pipe p).cls.labq = x :: rest) (ht : exec (.label p) s = .next t)
    (hemits : (t.pipe p).qCls = (s.pipe p).qCls ++ [y]) :
    errorEvents (.label p) s =
      if (s.pipe p).cls.rem = 0 ∧ isCom x.lane0 = true ∧ y.os = .data then [.osMalformed] else [] := by
  refine if_congr ((malformedSet_iff hq).trans ?_) rfl rfl
  cases he : labelEnabled (s.pipe p).cls x with
  | false =>
    cases ht.symm.trans (exec_label_waits hq he)
    simp at hemits
  | true =>
    cases ht.symm.trans (exec_label_enabled hq he)
    have hos : (labelHead (s.pipe p).cls x).1 = y.os := by
      rw [State.setPipe_pipe] at hemits
      exact congrArg ClassifiedTransfer.os (List.singleton_inj.mp (List.append_cancel_left hemits))
    rw [hos, eq_self, true_and]

theorem errorEvents_label_keeps (ht : exec (.label p) s = .next t) (hkept : (t.pipe p).qCls = (s.pipe p).qCls) :
    errorEvents (.label p) s = [] := by
  cases hq : (s.pipe p).cls.labq with
  | nil => exact if_neg (by simp [malformedSet, hq])
  | cons x rest =>
    refine if_neg fun hmalformed => ?_
    obtain ⟨he, _⟩ := (malformedSet_iff hq).mp hmalformed
    cases ht.symm.trans (exec_label_enabled hq he)
    rw [State.setPipe_pipe] at hkept
    simp [emitLabelled] at hkept

end OsMalformed

/-! ### All instructions -/

theorem errorEvents_otherKind {i : Instr} {s : State} (h : stepKind i ∉ [.writer, .stop, .trigger, .labeller]) :
    errorEvents i s = [] := by
  cases i with
  | filtWritePkt _ | stop _ _ | trig _ | label _ => simp [stepKind] at h
  | _ => rfl

theorem errorEvents_otherWriterRow {p : Pipe} {s : State} :
    ∀ i ∈ [Instr.filtWriteFind p, .filtWriteOsbody p, .filtWritePass p], errorEvents i s = [] := by
  simp only [List.forall_mem_cons]
  exact ⟨rfl, rfl, rfl, List.forall_mem_nil _⟩

/-- Settles O43: each event's condition, tied to what the instruction does. -/
theorem errorEventsHaveTheirCauses : Obligations.ErrorEventsHaveTheirCauses := by
  refine ⟨fun _ _ _ _ => errorEvents_filtWritePkt_admits, fun _ _ _ => errorEvents_filtWritePkt_keeps,
    fun _ _ _ => if_congr aborts_iff rfl rfl, fun _ _ => errorEvents_trig_empty, ?_, fun _ _ _ _ _ _ => errorEvents_label_emits,
    fun _ _ _ => errorEvents_label_keeps, fun _ _ => errorEvents_otherKind, fun _ _ => errorEvents_otherWriterRow⟩
  rintro p s _ y rest rfl hq size pa pu b0 b1 m fails compared mismatch
  have hcause : mismatches (s.pipe p) = true ↔ compared ∧ mismatch := by
    rw [mismatches_iff hq, alignedTrack, matchPair_eq_zero_iff, unalignedTrack_eq_zero_iff, TriggerState.armed_pa,
      TriggerState.armed_pu]
  exact ⟨fun hcompared hmismatch => if_pos (hcause.mpr ⟨hcompared, hmismatch⟩),
    fun hnot => if_neg (mt hcause.mp (not_and_or.mpr hnot))⟩

end Sys2Proof.Machine
end

section
/-! PROOF. Hardware reset: the value of every state element, and the invariant (70_reset_and_hazards.md R470). -/

namespace Sys2Proof.Machine

open Sys2Proof.Config Host

/-! ### The reset values (R470) -/

/-- Settles O7: each pipeline of the reset state is `PipelineState.reset`, whose stages hold the table's values; the status registers
read functions of these (10_state.md R56). -/
theorem resetPutsEveryElementInItsTableValue : Obligations.ResetPutsEveryElementInItsTableValue := by
  intro par p
  simp only [State.resetWith_pipe]
  refine ⟨rfl, rfl, ?queues, ?classifier, ?filter, ?trigger, ?recorder, ?bank, fun _ => List.getElem?_replicate_of_lt, fun _ => rfl,
    ?triggered, ?finished, ?trigAddr, ?state⟩
  case queues | classifier | filter | trigger | recorder | bank => and_intros <;> rfl
  case triggered | finished | trigAddr | state => cases p <;> rfl

/-! ### The invariant at reset -/

/-- The queues, the ring and the match are empty, the cursor and the trigger address stand at BASE_P, and the pattern table has its
MEM_SIZE entries. -/
theorem PipelineState.good_reset {par : Params} (hv : par.Valid) (p : Pipe) : (PipelineState.reset par p).Good par p :=
  have hcls : ClassifierState.reset.Good := by decide
  have hflt : FilterState.reset.Good par := FilterState.good_reset par
  have htrg : TriggerState.reset.Good par := TriggerState.good_zero par .idle
  have hbase : InRing par p (BitVec.ofNat 32 (par.base p)).toNat := inRing_base hv p
  have hring : Memory.Good par p [] := ⟨rfl, List.forall_mem_nil _⟩
  ⟨hcls, List.forall_mem_nil _, hflt.writer, hflt.reader, hflt.items, hflt.room, List.forall_mem_nil _, htrg, List.forall_mem_nil _,
    hbase, hbase, hring, Nat.zero_le _, List.length_replicate⟩

theorem State.inv_resetWith {par : Params} (hv : par.Valid) : (State.resetWith par).Inv :=
  ⟨hv, PipelineState.good_reset hv .rx, PipelineState.good_reset hv .tx⟩

/-- Settles O8: both pipelines of a valid instance are good at reset, and the parameters of `State.reset` are valid. -/
theorem resetMeetsTheInvariant : Obligations.ResetMeetsTheInvariant :=
  have hdefault : Params.default.Valid := by decide
  ⟨fun _ => State.inv_resetWith, State.inv_resetWith hdefault⟩

end Sys2Proof.Machine
end
